-- ==== Sys2Proof/Word.lean ====
section
/-! DEFINITION. The word and byte types of the block (spec/00_scope.md R7). -/

namespace Sys2Proof

/-- A 32-bit register, port word, command word or ring index (R7, R35, R101). -/
abbrev Word := BitVec 32

/-- A byte of the line or of a ring data slot (R7). -/
abbrev Byte := BitVec 8

end Sys2Proof
end

