-- ==== Sys2Proof/Config.lean ====
section
/-! DEFINITION. What one launch of the block fixes (spec/00_scope.md R8), the moves a schedule is made of
(spec/60_exceptions.md R321), the example variants of spec/95_test_vectors.md section 2, and the free values. -/

namespace Sys2Proof

/-- Prescaler codes (HPRE, PPRE1, PPRE2): divide by 2^code (R41). A code may be reserved (R53). -/
structure Prescaler where
  hpre : BitVec 4
  ppre1 : BitVec 3
  ppre2 : BitVec 3
  deriving DecidableEq, Repr

/-- The variant record V (R8). The codes and dividers have the widths of their register fields, log entry 21. -/
structure Variant where
  fIrc : Nat
  fXosc : Nat
  fTarget : Nat
  latency : BitVec 4
  flashMaxHz : Vector Nat 16
  pllM : BitVec 6
  pllN : BitVec 9
  pllP : BitVec 4
  prescInter : Option Prescaler
  prescFinal : Prescaler
  finalAfterSwitch : Bool
  ahbMaxHz : Nat
  apb1MaxHz : Nat
  apb2MaxHz : Nat
  deriving DecidableEq, Repr

/-- STOP_CLOCK_POLICY: what the clock registers hold after a wake from stop (R8, R205). -/
inductive StopPolicy where
  | retain
  | revertToInternal
  deriving DecidableEq, Repr

/-- An entry of VARIANT_MAP: where a chip family places a field of a slot of R36, as the real register address and
the position of the field's lowest bit (R8, R36). The key's form is a DESIGN CHOICE, safe, log entry 20. -/
structure FieldPlace where
  family : String
  slot : Nat
  field : String
  address : Nat
  bit : Nat
  deriving DecidableEq, Repr

/-- The launch parameters of R8, fixed for a run (log entry 3). `program` is HOST_PROGRAM, pairs (CMD, ARG), and
`variantMap` is VARIANT_MAP, which no rule reads (R36). LINE_IN is not here: the bytes still to come are state
(R68). -/
structure Launch where
  variant : Variant
  nrx : Nat
  ntx : Nat
  xtalPresent : Bool
  pllLocks : Bool
  stopPolicy : StopPolicy
  variantMap : List FieldPlace
  regBase : Nat
  ringBaseRx : Nat
  ringBaseTx : Nat
  program : List (Word × Word)
  deriving DecidableEq, Repr

/-- The moves a schedule picks from: the agents of R3 and R321, the environment event WAKE (R4), and the port
writes of a host outside the program model (R310 row 0x02, R30, R31; log entry 2). -/
inductive Move where
  | host
  | cseq
  | irqe
  | osc
  | pll
  | clksw
  | tick
  | utx
  | urx
  | wake
  | portCmd (c : Word)
  | portArg (v : Word)
  deriving DecidableEq, Repr, Inhabited

/-! ### Free values: nothing constrains them -/

/-- The move taken when State.schedule holds none: "The scheduler may pick any enabled agent at any step" (R321).
DESIGN CHOICE, safe, log entry 1. -/
opaque Config.freeMove : Nat → Move

/-- A draw of 32 bits, used for SCRATCH and RES at a standby wake (R32, R37, R340). Log entry 5. -/
opaque Config.freeWord : Nat → Word

/-- A draw of one byte, used for RXDATA and TXDATA at a standby wake (R50, R340). Log entry 5. -/
opaque Config.freeByte : Nat → Byte

/-- TICK_RELOAD for a target frequency whose `div 1000` does not fit 32 bits, where R194 states no value.
DESIGN CHOICE, safe, log entry 15. -/
opaque Config.reloadOverflow : Nat → Word

/-- The frequency of the reserved source code 3, which R55 does not give. DESIGN CHOICE, safe, log entry 16. -/
opaque Config.reservedSourceHz : Nat

/-! ### The example variants of spec/95_test_vectors.md section 2 -/

/-- Variant EX, one-step. -/
def Variant.ex : Variant where
  fIrc := 16000000
  fXosc := 8000000
  fTarget := 72000000
  latency := 2
  flashMaxHz := #v[24000000, 48000000, 72000000, 72000000, 72000000, 72000000, 72000000, 72000000,
    72000000, 72000000, 72000000, 72000000, 72000000, 72000000, 72000000, 72000000]
  pllM := 1
  pllN := 9
  pllP := 1
  prescInter := none
  prescFinal := { hpre := 0, ppre1 := 1, ppre2 := 0 }
  finalAfterSwitch := false
  ahbMaxHz := 72000000
  apb1MaxHz := 36000000
  apb2MaxHz := 72000000

/-- Variant EX2, two-step, final prescaler after the switch. -/
def Variant.ex2 : Variant :=
  { Variant.ex with prescInter := some { hpre := 0, ppre1 := 2, ppre2 := 1 }, finalAfterSwitch := true }

/-- Variant EX2b, two-step, final prescaler before the switch. -/
def Variant.ex2b : Variant := { Variant.ex2 with finalAfterSwitch := false }

/-- The launch of State.reset: variant EX with NRX = NTX = 8 and policy retain (95 section 2), the OPEN bases at
aligned values that keep the three regions apart, an empty VARIANT_MAP, and no program. DESIGN CHOICE, unsafe, log
entry 3. -/
def Launch.ex : Launch where
  variant := Variant.ex
  nrx := 8
  ntx := 8
  xtalPresent := true
  pllLocks := true
  stopPolicy := .retain
  variantMap := []
  regBase := 0x40000000
  ringBaseRx := 0x20000000
  ringBaseTx := 0x20001000
  program := []

end Sys2Proof
end

