-- ==== Sys2Proof/Syntax.lean ====
section
/-! DEFINITION. The commands (spec/30_encoding.md): one constructor per row of spec/opcode_table.json, the
operands of R141, and the pseudo-instructions of R146. -/

namespace Sys2Proof

/-- The two rings: RING = 0 is RX, RING = 1 is TX (R135, R141). -/
inductive RingId where
  | rx
  | tx
  deriving DecidableEq, Repr

/-- The power modes of PDOWN: MODE = 0 is stop, MODE = 1 is standby (R137, R141). -/
inductive PowerMode where
  | stop
  | standby
  deriving DecidableEq, Repr

/-- The 21 commands of R138. A slot is the 8-bit slot number of R36, a bit an index 0..31. -/
inductive Instr where
  | rd (slot : Nat)
  | wr (slot : Nat)
  | rdbit (slot bit : Nat)
  | wrbit (slot bit : Nat) (v : Bool)
  | poll (slot bit : Nat) (v : Bool)
  | tryput (ring : RingId) (byte : Byte)
  | tryget (ring : RingId)
  | isfull (ring : RingId)
  | isempty (ring : RingId)
  | count (ring : RingId)
  | uinit
  | chinit
  | pputc (byte : Byte)
  | pgetc
  | putc (byte : Byte)
  | getc
  | bringup
  | pdown (mode : PowerMode)
  | irqoff
  | irqon
  | rdtick
  deriving DecidableEq, Repr

/-! ### Pseudo-instructions (R146) -/

/-- SETBIT slot, bit. -/
def Instr.setbit (slot bit : Nat) : Instr := .wrbit slot bit true

/-- CLRBIT slot, bit. -/
def Instr.clrbit (slot bit : Nat) : Instr := .wrbit slot bit false

/-- WAITSET slot, bit. -/
def Instr.waitset (slot bit : Nat) : Instr := .poll slot bit true

/-- WAITCLR slot, bit. -/
def Instr.waitclr (slot bit : Nat) : Instr := .poll slot bit false

/-- CRIT_BEGIN. -/
def Instr.critBegin : Instr := .irqoff

/-- CRIT_END. -/
def Instr.critEnd : Instr := .irqon

end Sys2Proof
end

