-- ==== Sys2Proof/WellFormed.lean ====
section
/-! DEFINITION. Well-formed commands (spec/30_encoding.md R141), well-formed variants (spec/00_scope.md R9) and
well-formed launches (spec/00_scope.md R8, spec/20_memory.md R102). -/

namespace Sys2Proof

/-- The operands fit their fields: SLOT is w[23:16], BIT is w[12:8] (R141). Every other operand fits by its type. -/
def Instr.wellFormed : Instr → Bool
  | .rd slot => decide (slot < 256)
  | .wr slot => decide (slot < 256)
  | .rdbit slot bit => decide (slot < 256) && decide (bit < 32)
  | .wrbit slot bit _ => decide (slot < 256) && decide (bit < 32)
  | .poll slot bit _ => decide (slot < 256) && decide (bit < 32)
  | .tryput _ _ => true
  | .tryget _ => true
  | .isfull _ => true
  | .isempty _ => true
  | .count _ => true
  | .uinit => true
  | .chinit => true
  | .pputc _ => true
  | .pgetc => true
  | .putc _ => true
  | .getc => true
  | .bringup => true
  | .pdown _ => true
  | .irqoff => true
  | .irqon => true
  | .rdtick => true

/-- The prescaler (0, 0, 0) of reset. -/
def Prescaler.one : Prescaler := { hpre := 0, ppre1 := 0, ppre2 := 0 }

/-- R9 (d): HPRE in 0..9, PPRE1 and PPRE2 in 0..4. -/
def Prescaler.legal (p : Prescaler) : Bool :=
  decide (p.hpre.toNat ≤ 9) && decide (p.ppre1.toNat ≤ 4) && decide (p.ppre2.toNat ≤ 4)

/-- R9: bus(f, p) stays within the three maxima. -/
def Variant.busOk (v : Variant) (f : Nat) (p : Prescaler) : Bool :=
  let h := f / 2 ^ p.hpre.toNat
  decide (h ≤ v.ahbMaxHz) && decide (h / 2 ^ p.ppre1.toNat ≤ v.apb1MaxHz)
    && decide (h / 2 ^ p.ppre2.toNat ≤ v.apb2MaxHz)

/-- R9 (a): the PLL dividers and multiplier are not 0. -/
def Variant.dividersOk (v : Variant) : Bool :=
  decide (v.pllM ≠ 0) && decide (v.pllN ≠ 0) && decide (v.pllP ≠ 0)

/-- R9 (b): F_TARGET is exactly the PLL output from the external oscillator. -/
def Variant.targetOk (v : Variant) : Bool :=
  let num := v.fXosc * v.pllN.toNat
  let den := v.pllM.toNat * v.pllP.toNat
  decide (num % den = 0) && decide (v.fTarget = num / den)

/-- FLASH_MAX_HZ[n] (R8). -/
def Variant.flashMax (v : Variant) (n : BitVec 4) : Nat := v.flashMaxHz.get n.toFin

/-- R9 (c): the flash limits. -/
def Variant.flashOk (v : Variant) : Bool :=
  decide (v.fIrc ≤ v.flashMax 0) && decide (v.fIrc ≤ v.flashMax v.latency)
    && decide (v.fTarget ≤ v.flashMax v.latency)

/-- R9 (d): every prescaler code is legal. -/
def Variant.codesOk (v : Variant) : Bool :=
  v.prescFinal.legal && (match v.prescInter with | some p => p.legal | none => true)

/-- R9 (e): FINAL_AFTER_SWITCH implies that PRESC_INTER is present. -/
def Variant.orderOk (v : Variant) : Bool := !v.finalAfterSwitch || v.prescInter.isSome

/-- R9 (f): every active pair stays within the bus maxima, a repeated BRINGUP's among them. DEDUCED, log
entry 29. -/
def Variant.busesOk (v : Variant) : Bool :=
  v.busOk v.fIrc Prescaler.one && v.busOk v.fIrc v.prescFinal && v.busOk v.fTarget v.prescFinal
    && (match v.prescInter with
        | some p => v.busOk v.fIrc p && v.busOk v.fTarget p
        | none => true)

/-- A well-formed variant (R9), with the positive frequencies of R8. -/
def Variant.wellFormed (v : Variant) : Bool :=
  decide (0 < v.fIrc) && decide (0 < v.fXosc) && decide (0 < v.fTarget)
    && v.dividersOk && v.targetOk && v.flashOk && v.codesOk && v.orderOk && v.busesOk

/-- The regions [a, a + n) and [b, b + m) do not meet. -/
def apart (a n b m : Nat) : Bool := decide (a + n ≤ b) || decide (b + m ≤ a)

/-- The address is a multiple of 4: word aligned (R101, R103). -/
def wordAligned (a : Nat) : Bool := decide (a % 4 = 0)

/-- The bases and ring parameters as R8, R101, R102 and R103 ask: capacities at least 2, word-aligned bases, each
ring's 8 + N bytes and the register space within 32-bit addresses, and the three regions apart. The variant may
still be ill-formed (R9). -/
def Launch.wellFormed (l : Launch) : Bool :=
  decide (2 ≤ l.nrx) && decide (2 ≤ l.ntx)
    && wordAligned l.regBase && wordAligned l.ringBaseRx && wordAligned l.ringBaseTx
    && decide (l.ringBaseRx + 8 + l.nrx ≤ 2 ^ 32) && decide (l.ringBaseTx + 8 + l.ntx ≤ 2 ^ 32)
    && decide (l.regBase + 4 * 256 ≤ 2 ^ 32)
    && apart l.ringBaseRx (8 + l.nrx) l.ringBaseTx (8 + l.ntx)
    && apart l.regBase (4 * 256) l.ringBaseRx (8 + l.nrx)
    && apart l.regBase (4 * 256) l.ringBaseTx (8 + l.ntx)

end Sys2Proof
end

