-- ==== Sys2Proof/Decode.lean ====
section
/-! DEFINITION. Decoding and encoding of command words (spec/30_encoding.md R130 to R141), and the opcode map's
match and mask values (R138). -/

namespace Sys2Proof

/-- Why a word is no command (R139). Both make issuing it raise IllegalCommand. -/
inductive DecodeError where
  | unlistedOpcode
  | nonzeroFixedBit
  deriving DecidableEq, Repr

/-- w[lo + len - 1 : lo] as a number (R10). -/
def wordField (w : Word) (lo len : Nat) : Nat := (w.extractLsb' lo len).toNat

/-- The command `i`, if every bit the format marks 0 is 0 (R131). -/
def whenZero (zero : Bool) (i : Instr) : Except DecodeError Instr :=
  if zero then .ok i else .error .nonzeroFixedBit

/-- RING = w[16] (R141). -/
def ringOf (w : Word) : RingId := if wordField w 16 1 = 1 then .tx else .rx

/-- Format A: w[23:0] is 0 (R132). -/
def formatA (w : Word) (i : Instr) : Except DecodeError Instr :=
  whenZero (wordField w 0 24 == 0) i

/-- Format S: w[15:0] is 0 (R133). -/
def formatS (w : Word) (i : Nat → Instr) : Except DecodeError Instr :=
  whenZero (wordField w 0 16 == 0) (i (wordField w 16 8))

/-- Format B with a value V in w[0] (R134). -/
def formatB (w : Word) (i : Nat → Nat → Bool → Instr) : Except DecodeError Instr :=
  whenZero (wordField w 13 3 == 0 && wordField w 1 7 == 0)
    (i (wordField w 16 8) (wordField w 8 5) (wordField w 0 1 == 1))

/-- Format B with V = 0 (R134, RDBIT). -/
def formatB0 (w : Word) (i : Nat → Nat → Instr) : Except DecodeError Instr :=
  whenZero (wordField w 13 3 == 0 && wordField w 0 8 == 0) (i (wordField w 16 8) (wordField w 8 5))

/-- Format Q with a byte (R135, TRYPUT). -/
def formatQ (w : Word) (i : RingId → Byte → Instr) : Except DecodeError Instr :=
  whenZero (wordField w 17 7 == 0 && wordField w 8 8 == 0) (i (ringOf w) (BitVec.ofNat 8 (wordField w 0 8)))

/-- Format Q with BYTE = 0 (R135). -/
def formatQ0 (w : Word) (i : RingId → Instr) : Except DecodeError Instr :=
  whenZero (wordField w 17 7 == 0 && wordField w 0 16 == 0) (i (ringOf w))

/-- Format D: w[23:8] is 0 (R136). -/
def formatD (w : Word) (i : Byte → Instr) : Except DecodeError Instr :=
  whenZero (wordField w 8 16 == 0) (i (BitVec.ofNat 8 (wordField w 0 8)))

/-- Format M: w[23:1] is 0, MODE = w[0] (R137). -/
def formatM (w : Word) (i : PowerMode → Instr) : Except DecodeError Instr :=
  whenZero (wordField w 1 23 == 0) (i (if wordField w 0 1 = 1 then .standby else .stop))

/-- Decoding, total on every 32-bit word: OPC = w[31:24] selects the row of R138 (R131, R139). -/
def decode (w : Word) : Except DecodeError Instr :=
  match wordField w 24 8 with
  | 0x01 => formatS w .rd
  | 0x02 => formatS w .wr
  | 0x03 => formatB0 w .rdbit
  | 0x04 => formatB w .wrbit
  | 0x05 => formatB w .poll
  | 0x10 => formatQ w .tryput
  | 0x11 => formatQ0 w .tryget
  | 0x12 => formatQ0 w .isfull
  | 0x13 => formatQ0 w .isempty
  | 0x14 => formatQ0 w .count
  | 0x20 => formatA w .uinit
  | 0x21 => formatA w .chinit
  | 0x22 => formatD w .pputc
  | 0x23 => formatA w .pgetc
  | 0x24 => formatD w .putc
  | 0x25 => formatA w .getc
  | 0x30 => formatA w .bringup
  | 0x31 => formatM w .pdown
  | 0x40 => formatA w .irqoff
  | 0x41 => formatA w .irqon
  | 0x42 => formatA w .rdtick
  | _ => .error .unlistedOpcode

/-- The host's question: the command in the low `nbits` bits of `w`, every bit above them 0. -/
def decodeTableWord (nbits w : Nat) : Option Instr :=
  match decode (BitVec.ofNat 32 (w % 2 ^ nbits)) with
  | .ok i => some i
  | .error _ => none

/-! ### Encoding (R132 to R137, R145) -/

/-- RING as a number (R141). -/
def RingId.number : RingId → Nat
  | .rx => 0
  | .tx => 1

/-- MODE as a number (R141). -/
def PowerMode.number : PowerMode → Nat
  | .stop => 0
  | .standby => 1

/-- Format S: OPC in [31:24], SLOT in [23:16] (R133). -/
def encodeS (opc slot : Nat) : Word := BitVec.ofNat 32 (opc * 2 ^ 24 + slot * 2 ^ 16)

/-- Format B: OPC in [31:24], SLOT in [23:16], BIT in [12:8], V in [0] (R134). -/
def encodeB (opc slot bit : Nat) (v : Bool) : Word :=
  BitVec.ofNat 32 (opc * 2 ^ 24 + slot * 2 ^ 16 + bit * 2 ^ 8 + v.toNat)

/-- Format Q: OPC in [31:24], RING in [16], BYTE in [7:0] (R135). -/
def encodeQ (opc : Nat) (ring : RingId) (byte : Byte) : Word :=
  BitVec.ofNat 32 (opc * 2 ^ 24 + ring.number * 2 ^ 16 + byte.toNat)

/-- Format D: OPC in [31:24], BYTE in [7:0] (R136). -/
def encodeD (opc : Nat) (byte : Byte) : Word := BitVec.ofNat 32 (opc * 2 ^ 24 + byte.toNat)

/-- Format M: OPC in [31:24], MODE in [0] (R137). -/
def encodeM (opc : Nat) (mode : PowerMode) : Word := BitVec.ofNat 32 (opc * 2 ^ 24 + mode.number)

/-- The word of a command (R145). -/
def encode : Instr → Word
  | .rd slot => encodeS 0x01 slot
  | .wr slot => encodeS 0x02 slot
  | .rdbit slot bit => encodeB 0x03 slot bit false
  | .wrbit slot bit v => encodeB 0x04 slot bit v
  | .poll slot bit v => encodeB 0x05 slot bit v
  | .tryput ring byte => encodeQ 0x10 ring byte
  | .tryget ring => encodeQ 0x11 ring 0
  | .isfull ring => encodeQ 0x12 ring 0
  | .isempty ring => encodeQ 0x13 ring 0
  | .count ring => encodeQ 0x14 ring 0
  | .uinit => 0x20000000
  | .chinit => 0x21000000
  | .pputc byte => encodeD 0x22 byte
  | .pgetc => 0x23000000
  | .putc byte => encodeD 0x24 byte
  | .getc => 0x25000000
  | .bringup => 0x30000000
  | .pdown mode => encodeM 0x31 mode
  | .irqoff => 0x40000000
  | .irqon => 0x41000000
  | .rdtick => 0x42000000

/-! ### The match and mask values of R138 -/

/-- A row of the opcode map: a word selects it exactly when `w & mask = mtch`. -/
structure OpcodeRow where
  mnemonic : String
  mtch : Word
  mask : Word
  deriving DecidableEq, Repr

/-- `w & mask(m) = match(m)` (R138). -/
def OpcodeRow.selects (r : OpcodeRow) (w : Word) : Bool := w &&& r.mask == r.mtch

/-- The opcode map of R138. -/
def opcodeMap : List OpcodeRow :=
  [⟨"RD", 0x01000000, 0xFF00FFFF⟩, ⟨"WR", 0x02000000, 0xFF00FFFF⟩, ⟨"RDBIT", 0x03000000, 0xFF00E0FF⟩,
   ⟨"WRBIT", 0x04000000, 0xFF00E0FE⟩, ⟨"POLL", 0x05000000, 0xFF00E0FE⟩, ⟨"TRYPUT", 0x10000000, 0xFFFEFF00⟩,
   ⟨"TRYGET", 0x11000000, 0xFFFEFFFF⟩] ++
  [⟨"ISFULL", 0x12000000, 0xFFFEFFFF⟩, ⟨"ISEMPTY", 0x13000000, 0xFFFEFFFF⟩, ⟨"COUNT", 0x14000000, 0xFFFEFFFF⟩,
   ⟨"UINIT", 0x20000000, 0xFFFFFFFF⟩, ⟨"CHINIT", 0x21000000, 0xFFFFFFFF⟩, ⟨"PPUTC", 0x22000000, 0xFFFFFF00⟩,
   ⟨"PGETC", 0x23000000, 0xFFFFFFFF⟩] ++
  [⟨"PUTC", 0x24000000, 0xFFFFFF00⟩, ⟨"GETC", 0x25000000, 0xFFFFFFFF⟩, ⟨"BRINGUP", 0x30000000, 0xFFFFFFFF⟩,
   ⟨"PDOWN", 0x31000000, 0xFFFFFFFE⟩, ⟨"IRQOFF", 0x40000000, 0xFFFFFFFF⟩, ⟨"IRQON", 0x41000000, 0xFFFFFFFF⟩,
   ⟨"RDTICK", 0x42000000, 0xFFFFFFFF⟩]

/-- The mnemonic of a command in R138. -/
def Instr.mnemonic : Instr → String
  | .rd _ => "RD"
  | .wr _ => "WR"
  | .rdbit _ _ => "RDBIT"
  | .wrbit _ _ _ => "WRBIT"
  | .poll _ _ _ => "POLL"
  | .tryput _ _ => "TRYPUT"
  | .tryget _ => "TRYGET"
  | .isfull _ => "ISFULL"
  | .isempty _ => "ISEMPTY"
  | .count _ => "COUNT"
  | .uinit => "UINIT"
  | .chinit => "CHINIT"
  | .pputc _ => "PPUTC"
  | .pgetc => "PGETC"
  | .putc _ => "PUTC"
  | .getc => "GETC"
  | .bringup => "BRINGUP"
  | .pdown _ => "PDOWN"
  | .irqoff => "IRQOFF"
  | .irqon => "IRQON"
  | .rdtick => "RDTICK"

end Sys2Proof
end

