-- ==== Sys2Proof/Machine/State.lean ====
section
/-! DEFINITION. The state of the block (spec/10_state.md) as plain data, the reasons a step can stop, and the
state after reset (spec/70_reset_and_hazards.md R340). -/

namespace Sys2Proof.Machine

/-- The fault codes of R310, in the order of their numbers 0x01 to 0x0E. -/
inductive FaultCode where
  | illegalCommand
  | commandWhileBusy
  | unmappedSlot
  | ownershipViolation
  | peripheralBeforeSwitched
  | peripheralClockOff
  | reservedBitWrite
  | reservedFieldValue
  | pllConfigIllegal
  | pllReconfigWhileOn
  | busOverclock
  | flashWaitStates
  | txWhileBusy
  | channelOff
  deriving DecidableEq, Repr

/-- The clock sequencer's step register SEQ_STATE (R65). -/
inductive SeqState where
  | idle
  | s1Flash
  | s2XoscOn
  | s2XoscWait
  | s3PllCfg
  | s3PllOn
  | s3PllWait
  | s4PrescInter
  | s4PrescFinal
  | s5Switch
  | s5SwitchWait
  | s4PrescLate
  | s6TickArm
  | s6TickEn
  | p1PwrEn
  | p2Mode
  | p3Deep
  | p4Wfe
  deriving DecidableEq, Repr

/-- The power state PSTATE (R67). -/
inductive PowerState where
  | run
  | stop
  | standby
  deriving DecidableEq, Repr

/-- The micro-step index `ms` (R56). CHINIT has the most, nine (R257). -/
inductive MicroStep where
  | ms1
  | ms2
  | ms3
  | ms4
  | ms5
  | ms6
  | ms7
  | ms8
  | ms9
  deriving DecidableEq, Repr

/-- HOST's micro-step state (R56): the latched CMD and ARG, the micro-step index and the temporaries. -/
structure Current where
  word : Word
  arg : Word
  ms : MicroStep
  t : Word
  rr : Word
  ww : Word
  cnt : Word
  b : Byte
  deriving DecidableEq, Repr

/-- A command just latched, at its first micro-step (R30). Log entry 11. -/
def Current.start (word arg : Word) : Current :=
  { word := word, arg := arg, ms := .ms1, t := 0, rr := 0, ww := 0, cnt := 0, b := 0 }

/-- "no current command" (R56): the value of the micro-step state while BUSY = 0. Log entry 11. -/
def Current.none : Current := Current.start 0 0

/-- The state: the launch parameters (R8), the host port (R30 to R34), the fault record (R70), the sequencer and
power state (R65, R67), the registers of the slot table (R36 to R52), ring RAM (R60, R102), CHEN and IMASK (R63,
R64), the line (R68), and the model's own schedule and count of free values (log entry 1). -/
structure State where
  launch : Launch
  arg : Word
  res : Word
  busy : Bool
  fault : Option FaultCode
  seqState : SeqState
  pstate : PowerState
  hpc : Nat
  current : Current
  scratch : Word
  flashAcr : Word
  clkCr : Word
  clkPllcfg : Word
  clkCfgr : Word
  penr : Word
  pwrCr : Word
  scr : Word
  tickCtrl : Word
  tickReload : Word
  tickCount : Word
  tickPend : Bool
  uartStat : Word
  rxData : Byte
  txData : Byte
  uartCtrl : Word
  uartBaud : Word
  mem : List Host.Cell
  chen : Bool
  imask : Bool
  lineIn : List Byte
  lineOut : List Byte
  schedule : List Move
  freeCount : Nat
  deriving DecidableEq, Repr

/-- Why a step stops for good. -/
inductive Fault where
  /-- Raised by `step` in a state whose fault record is set: the block "halts every agent" (R313). Safe. -/
  | halted (c : FaultCode)
  /-- Raised by a meaning at a micro-step index its command does not have, a state no run reaches (R56). Safe. -/
  | noSuchMicroStep
  /-- Raised by an access to BUF_k[i] with i outside 0..N_k - 1, a state no run reaches (R60, R61). Safe. -/
  | noSuchRingSlot
  deriving DecidableEq, Repr

/-- Why the model gives an instruction no meaning. -/
inductive Refusal where
  /-- Raised by an arm of `exec` whose instruction has no meaning yet. Safe. -/
  | notModelled (mnemonic : String)
  deriving DecidableEq, Repr

/-- The values a reset leaves unspecified, each a draw (R340, 93 U12). -/
structure Draws where
  res : Word
  scratch : Word
  rxData : Byte
  txData : Byte
  deriving DecidableEq, Repr

/-- The draws of State.reset. DESIGN CHOICE, unsafe, log entry 5. -/
def Draws.zero : Draws := { res := 0, scratch := 0, rxData := 0, txData := 0 }

/-- The table of R340: every piece of state at its reset value. Ring RAM lists nothing, so every index reads 0
(R62) and every ring byte reads as log entry 6 says. -/
def State.afterReset (l : Launch) (d : Draws) (lineIn lineOut : List Byte) (schedule : List Move)
    (freeCount : Nat) : State where
  launch := l
  arg := 0
  res := d.res
  busy := false
  fault := none
  seqState := .idle
  pstate := .run
  hpc := 0
  current := Current.none
  scratch := d.scratch
  flashAcr := 0
  clkCr := 3
  clkPllcfg := 0
  clkCfgr := 0
  penr := 0
  pwrCr := 0
  scr := 0
  tickCtrl := 0
  tickReload := 0
  tickCount := 0
  tickPend := false
  uartStat := 2
  rxData := d.rxData
  txData := d.txData
  uartCtrl := 0
  uartBaud := 0
  mem := []
  chen := false
  imask := false
  lineIn := lineIn
  lineOut := lineOut
  schedule := schedule
  freeCount := freeCount

/-- The machine right after a power-on reset (R340, R342), under the launch of log entry 3. -/
def State.reset : State := State.afterReset Launch.ex Draws.zero [] [] [] 0

end Sys2Proof.Machine
end

