-- ==== Sys2Proof/Machine/Operands.lean ====
section
/-! DEFINITION. Bit fields (spec/00_scope.md R10), the slot table and the layout of its registers
(spec/10_state.md R35 to R53), and the numbers of the named codes (R33, R65, spec/60_exceptions.md R310). -/

namespace Sys2Proof.Machine

/-! ### Bits and fields -/

/-- `w` with bit `i` set to `b`: `w | (1 << i)` or `w & ~(1 << i)` (R163). -/
def withBit (w : Word) (i : Nat) (b : Bool) : Word :=
  if b then w ||| (1#32 <<< i) else w &&& ~~~(1#32 <<< i)

/-- `w[lo + len - 1 : lo]` (R10). -/
def fieldOf (w : Word) (lo len : Nat) : BitVec len := w.extractLsb' lo len

/-- `w` with the field of `len` bits at `lo` replaced: a field write `FIELD <- v` (R11, R198). -/
def withField {len : Nat} (w : Word) (lo : Nat) (v : BitVec len) : Word :=
  (w &&& ~~~((BitVec.allOnes len).setWidth 32 <<< lo)) ||| (v.setWidth 32 <<< lo)

/-- A register write: the bits of `mask` take `v`, the others keep `old` (R35). -/
def rwMerge (mask old v : Word) : Word := (old &&& ~~~mask) ||| (v &&& mask)

/-- The value the host computes for WRFIELD slot, hi, lo, v from the RES of its RD (R146). -/
def wrfieldValue (res : Word) (hi lo : Nat) (v : Word) : Word :=
  let mask := ((1#32 <<< (hi - lo + 1)) - 1) <<< lo
  (res &&& ~~~mask) ||| ((v <<< lo) &&& mask)

/-! ### The slot table (R36) -/

/-- The fifteen named slots of the table of R36 (log entry 8). -/
inductive Slot where
  | scratch
  | flashAcr
  | clkCr
  | clkPllcfg
  | clkCfgr
  | penr
  | pwrCr
  | scr
  | tickCtrl
  | tickReload
  | tickCount
  | uartStat
  | uartData
  | uartCtrl
  | uartBaud
  deriving DecidableEq, Repr

/-- The slot with a given number; every other number is unmapped (R36). -/
def Slot.ofNumber : Nat → Option Slot
  | 0x00 => some .scratch
  | 0x01 => some .flashAcr
  | 0x02 => some .clkCr
  | 0x03 => some .clkPllcfg
  | 0x04 => some .clkCfgr
  | 0x05 => some .penr
  | 0x06 => some .pwrCr
  | 0x07 => some .scr
  | 0x08 => some .tickCtrl
  | 0x09 => some .tickReload
  | 0x0A => some .tickCount
  | 0x10 => some .uartStat
  | 0x11 => some .uartData
  | 0x12 => some .uartCtrl
  | 0x13 => some .uartBaud
  | _ => none

/-- The number of a slot (R36). -/
def Slot.number : Slot → Nat
  | .scratch => 0x00
  | .flashAcr => 0x01
  | .clkCr => 0x02
  | .clkPllcfg => 0x03
  | .clkCfgr => 0x04
  | .penr => 0x05
  | .pwrCr => 0x06
  | .scr => 0x07
  | .tickCtrl => 0x08
  | .tickReload => 0x09
  | .tickCount => 0x0A
  | .uartStat => 0x10
  | .uartData => 0x11
  | .uartCtrl => 0x12
  | .uartBaud => 0x13

/-- The canonical address REG_BASE + 4*slot (R36, R101). No rule depends on it. -/
def Slot.address (l : Launch) (r : Slot) : Nat := l.regBase + 4 * r.number

/-- The owner is CSEQ or IRQE (R36): HOST may not write the slot (R59 (a)). -/
def Slot.notHosts : Slot → Bool
  | .scratch => false
  | .flashAcr => true
  | .clkCr => true
  | .clkPllcfg => true
  | .clkCfgr => true
  | .penr => false
  | .pwrCr => true
  | .scr => true
  | .tickCtrl => true
  | .tickReload => true
  | .tickCount => true
  | .uartStat => false
  | .uartData => false
  | .uartCtrl => false
  | .uartBaud => false

/-- A UART slot, 0x10 to 0x13 (R58). -/
def Slot.isUart : Slot → Bool
  | .uartStat => true
  | .uartData => true
  | .uartCtrl => true
  | .uartBaud => true
  | _ => false

/-- A peripheral slot: PENR or a UART slot (R57). -/
def Slot.isPeripheral (r : Slot) : Bool := r == .penr || r.isUart

/-- The RW bits of a slot (R37 to R52). For UART_DATA, the byte that a write takes. -/
def Slot.rwMask : Slot → Word
  | .scratch => 0xFFFFFFFF
  | .flashAcr => 0x0000000F
  | .clkCr => 0x00010100
  | .clkPllcfg => 0x010F7FFF
  | .clkCfgr => 0x00003FF3
  | .penr => 0x0000FFFF
  | .pwrCr => 0x00000001
  | .scr => 0x00000001
  | .tickCtrl => 0x00000003
  | .tickReload => 0xFFFFFFFF
  | .tickCount => 0x00000000
  | .uartStat => 0x00000000
  | .uartData => 0x000000FF
  | .uartCtrl => 0x00000007
  | .uartBaud => 0x0000FFFF

/-- The RO bits of a slot (R39, R41, R47, R49). -/
def Slot.roMask : Slot → Word
  | .clkCr => 0x00020203
  | .clkCfgr => 0x0000000C
  | .tickCount => 0xFFFFFFFF
  | .uartStat => 0x00000007
  | _ => 0x00000000

/-- The reserved bits of a slot: neither RW nor RO (R35). A write may set none of them to 1 (R35, R167); log entry 9
says so of UART_STAT. -/
def Slot.reservedMask (r : Slot) : Word := ~~~(r.rwMask ||| r.roMask)

/-- The bits that always read 1: IRCON and IRCRDY (R39). -/
def Slot.hardwired : Slot → Word
  | .clkCr => 0x00000003
  | _ => 0x00000000

/-- `v` puts a reserved code into a field of the slot (R53): SW = 3, HPRE in 10..15, PPRE1 or PPRE2 in 5..7. -/
def Slot.reservedCode (r : Slot) (v : Word) : Bool :=
  r == .clkCfgr && (decide (fieldOf v 0 2 = 3) || decide (9 < (fieldOf v 4 4).toNat)
    || decide (4 < (fieldOf v 8 3).toNat) || decide (4 < (fieldOf v 11 3).toNat))

/-! ### The numbers of the named codes -/

/-- FCODE (R310). -/
def FaultCode.number : FaultCode → Nat
  | .illegalCommand => 0x01
  | .commandWhileBusy => 0x02
  | .unmappedSlot => 0x03
  | .ownershipViolation => 0x04
  | .peripheralBeforeSwitched => 0x05
  | .peripheralClockOff => 0x06
  | .reservedBitWrite => 0x07
  | .reservedFieldValue => 0x08
  | .pllConfigIllegal => 0x09
  | .pllReconfigWhileOn => 0x0A
  | .busOverclock => 0x0B
  | .flashWaitStates => 0x0C
  | .txWhileBusy => 0x0D
  | .channelOff => 0x0E

/-- SEQ_STATE (R65). -/
def SeqState.number : SeqState → Nat
  | .idle => 0x00
  | .s1Flash => 0x01
  | .s2XoscOn => 0x02
  | .s2XoscWait => 0x03
  | .s3PllCfg => 0x04
  | .s3PllOn => 0x05
  | .s3PllWait => 0x06
  | .s4PrescInter => 0x07
  | .s4PrescFinal => 0x08
  | .s5Switch => 0x09
  | .s5SwitchWait => 0x0A
  | .s4PrescLate => 0x0B
  | .s6TickArm => 0x0C
  | .s6TickEn => 0x0D
  | .p1PwrEn => 0x10
  | .p2Mode => 0x11
  | .p3Deep => 0x12
  | .p4Wfe => 0x13

/-- PSTATE (R33). -/
def PowerState.number : PowerState → Nat
  | .run => 0
  | .stop => 1
  | .standby => 2

/-- The last micro-step of a command (the `msN` of its rule). -/
def lastMicroStep : Instr → MicroStep
  | .rd _ => .ms1
  | .wr _ => .ms1
  | .rdbit _ _ => .ms1
  | .wrbit _ _ _ => .ms2
  | .poll _ _ _ => .ms1
  | .tryput _ _ => .ms3
  | .tryget _ => .ms3
  | .isfull _ => .ms2
  | .isempty _ => .ms2
  | .count _ => .ms2
  | .uinit => .ms4
  | .chinit => .ms9
  | .pputc _ => .ms2
  | .pgetc => .ms2
  | .putc _ => .ms5
  | .getc => .ms3
  | .bringup => .ms2
  | .pdown _ => .ms2
  | .irqoff => .ms1
  | .irqon => .ms1
  | .rdtick => .ms1

/-- The number N of micro-step msN. -/
def MicroStep.number : MicroStep → Nat
  | .ms1 => 1
  | .ms2 => 2
  | .ms3 => 3
  | .ms4 => 4
  | .ms5 => 5
  | .ms6 => 6
  | .ms7 => 7
  | .ms8 => 8
  | .ms9 => 9

end Sys2Proof.Machine
end

