-- ==== Sys2Proof/Machine/Flags.lean ====
section
/-! DEFINITION. The named fields and status flags (spec/10_state.md R38 to R52, R72), the derived clock state and
frequencies (R54, R55), the frequency conditions (spec/60_exceptions.md R312), the interrupt conditions
(spec/44_serial_channel.md R275, spec/45_system.md R295) and the STATUS word (R33). -/

namespace Sys2Proof.Machine

/-! ### Fields -/

/-- FLASH_ACR.LATENCY (R38). -/
def State.latency (s : State) : BitVec 4 := fieldOf s.flashAcr 0 4

/-- CLK_CR.XOSCON (R39). -/
def State.xoscOn (s : State) : Bool := s.clkCr.getLsbD 8

/-- CLK_CR.XOSCRDY (R39). -/
def State.xoscRdy (s : State) : Bool := s.clkCr.getLsbD 9

/-- CLK_CR.PLLON (R39). -/
def State.pllOn (s : State) : Bool := s.clkCr.getLsbD 16

/-- CLK_CR.PLLRDY (R39). -/
def State.pllRdy (s : State) : Bool := s.clkCr.getLsbD 17

/-- CLK_PLLCFG.PLLM (R40). -/
def State.pllM (s : State) : BitVec 6 := fieldOf s.clkPllcfg 0 6

/-- CLK_PLLCFG.PLLN (R40). -/
def State.pllN (s : State) : BitVec 9 := fieldOf s.clkPllcfg 6 9

/-- CLK_PLLCFG.PLLP (R40). -/
def State.pllP (s : State) : BitVec 4 := fieldOf s.clkPllcfg 16 4

/-- CLK_PLLCFG.PLLSRC: true is the external oscillator (R40). -/
def State.pllSrc (s : State) : Bool := s.clkPllcfg.getLsbD 24

/-- CLK_CFGR.SW, the requested source (R41). -/
def State.sw (s : State) : BitVec 2 := fieldOf s.clkCfgr 0 2

/-- CLK_CFGR.SWS, the active source (R41). -/
def State.sws (s : State) : BitVec 2 := fieldOf s.clkCfgr 2 2

/-- The active prescaler codes HPRE, PPRE1, PPRE2 of CLK_CFGR (R41). -/
def State.prescaler (s : State) : Prescaler :=
  { hpre := fieldOf s.clkCfgr 4 4, ppre1 := fieldOf s.clkCfgr 8 3, ppre2 := fieldOf s.clkCfgr 11 3 }

/-- PENR.UARTEN (R42). -/
def State.uartEn (s : State) : Bool := s.penr.getLsbD 0

/-- PWR_CR.PDDS (R43). -/
def State.pdds (s : State) : Bool := s.pwrCr.getLsbD 0

/-- TICK_CTRL.TEN (R45). -/
def State.tickEn (s : State) : Bool := s.tickCtrl.getLsbD 0

/-- TICK_CTRL.TICKINT (R45). -/
def State.tickInt (s : State) : Bool := s.tickCtrl.getLsbD 1

/-- UART_STAT.RXNE (R49). -/
def State.rxne (s : State) : Bool := s.uartStat.getLsbD 0

/-- UART_STAT.TXE (R49). -/
def State.txe (s : State) : Bool := s.uartStat.getLsbD 1

/-- UART_STAT.ORE (R49). -/
def State.ore (s : State) : Bool := s.uartStat.getLsbD 2

/-- UART_CTRL.UE (R51). -/
def State.ue (s : State) : Bool := s.uartCtrl.getLsbD 0

/-- UART_CTRL.RXIE (R51). -/
def State.rxie (s : State) : Bool := s.uartCtrl.getLsbD 1

/-- UART_CTRL.TXIE (R51). -/
def State.txie (s : State) : Bool := s.uartCtrl.getLsbD 2

/-- UART_BAUD.BRD (R52). -/
def State.brd (s : State) : BitVec 16 := fieldOf s.uartBaud 0 16

/-- The UART line runs: UARTEN = 1, UE = 1 and BRD ≠ 0 (R51, R52, R270, R271). -/
def State.uartRuns (s : State) : Bool := s.uartEn && s.ue && decide (s.brd ≠ 0)

/-! ### Clock state and frequencies -/

/-- The four values of clockState (R54). -/
inductive ClockState where
  | reset
  | oscillatorStabilizing
  | pllLocking
  | switched
  deriving DecidableEq, Repr

/-- clockState, computed from status bits in the order of R54. -/
def State.clockState (s : State) : ClockState :=
  if s.sws = 2 then .switched
  else if s.pllOn then .pllLocking
  else if s.xoscOn then .oscillatorStabilizing
  else .reset

/-- pllOut (R55). -/
def State.pllOut (s : State) : Nat :=
  let ref := if s.pllSrc then s.launch.variant.fXosc else s.launch.variant.fIrc
  let den := s.pllM.toNat * s.pllP.toNat
  if den = 0 then 0 else ref * s.pllN.toNat / den

/-- srcFreq (R55). Code 3 is reserved and has no frequency: a free value, log entry 16. -/
def State.srcFreq (s : State) (code : BitVec 2) : Nat :=
  if code = 0 then s.launch.variant.fIrc
  else if code = 1 then s.launch.variant.fXosc
  else if code = 2 then s.pllOut
  else Config.reservedSourceHz

/-- SYSCLK follows the active source SWS (R55). -/
def State.sysclk (s : State) : Nat := s.srcFreq s.sws

/-- HCLK (R55). -/
def State.hclk (s : State) : Nat := s.sysclk / 2 ^ s.prescaler.hpre.toNat

/-- PCLK1 (R55). -/
def State.pclk1 (s : State) : Nat := s.hclk / 2 ^ s.prescaler.ppre1.toNat

/-- PCLK2 (R55). -/
def State.pclk2 (s : State) : Nat := s.hclk / 2 ^ s.prescaler.ppre2.toNat

/-- HCLK, PCLK1 or PCLK2 is above its maximum (R312). -/
def State.overclocked (s : State) : Bool :=
  decide (s.launch.variant.ahbMaxHz < s.hclk) || decide (s.launch.variant.apb1MaxHz < s.pclk1)
    || decide (s.launch.variant.apb2MaxHz < s.pclk2)

/-- SYSCLK is above FLASH_MAX_HZ[LATENCY] (R312). -/
def State.flashTooSlow (s : State) : Bool :=
  decide (s.launch.variant.flashMax s.latency < s.sysclk)

/-! ### Interrupt conditions -/

/-- tickIrq (R295). -/
def State.tickIrq (s : State) : Bool := s.tickPend && s.tickInt

/-- uartIrq (R275). -/
def State.uartIrq (s : State) : Bool :=
  s.uartEn && s.ue && ((s.rxne && s.rxie) || (s.txe && s.txie))

/-- "Running": PSTATE = RUN and no fault recorded (R321). -/
def State.running (s : State) : Bool := decide (s.pstate = .run) && s.fault.isNone

/-! ### The STATUS port -/

/-- FCODE: 0 if no fault is recorded (R33, R310). -/
def State.fcode (s : State) : Nat := match s.fault with | some c => c.number | none => 0

/-- The word HOST reads from STATUS (R33). -/
def State.statusWord (s : State) : Word :=
  BitVec.ofNat 32 (s.busy.toNat + 2 ^ 1 * s.fault.isSome.toNat + 2 ^ 8 * s.fcode
    + 2 ^ 16 * s.seqState.number + 2 ^ 24 * s.pstate.number)

end Sys2Proof.Machine
end

