-- ==== Sys2Proof/Machine/Ops.lean ====
section
/-! DEFINITION. The named operations over memory, rings, registers and the host port: ring RAM
(spec/20_memory.md R101, R102), raising a fault (spec/60_exceptions.md R310 to R313), completing a command
(spec/00_scope.md R11), the access procedures (spec/41_register_access.md R165 to R167), the ring procedures
(spec/43_ring_buffer.md R230 to R234) and the frequency checks (R312). -/

namespace Sys2Proof.Machine

/-- The outcome of a step. -/
abbrev Result := Host.Outcome State Fault Refusal

/-- Why an access does not give a state: a fault of R310 to record, or a ring slot that does not exist (log
entry 14). -/
inductive Stop where
  | raise (c : FaultCode)
  | noSuchRingSlot
  deriving DecidableEq, Repr

/-! ### Faults and completion -/

/-- `raise Fault(c)`: the record keeps the first fault (R313, R70). Nothing else changes (R311). -/
def State.raise (s : State) (c : FaultCode) : State :=
  { s with fault := match s.fault with | some first => some first | none => some c }

/-- `done()`: the command is complete, RES unchanged (R11). -/
def State.done (s : State) : State := { s with busy := false, current := Current.none }

/-- `done(r)`: the command is complete with RES <- r (R11, R32). -/
def State.doneWith (s : State) (r : Word) : State :=
  { s with res := r, busy := false, current := Current.none }

/-- The next HOST micro-step of the command is `ms` (R11, R56). -/
def State.goto (s : State) (ms : MicroStep) : State := { s with current := { s.current with ms := ms } }

/-- The end of a step begun in `s`: its state, or `s` with the fault recorded ("A fault in classes 1 to 4 leaves
the state as before the step, apart from the fault record", R311). -/
def commit (s : State) : Except Stop State → Result
  | .ok t => .next t
  | .error (.raise c) => .next (s.raise c)
  | .error .noSuchRingSlot => .fault .noSuchRingSlot

/-! ### Ring RAM: bytes and little-endian words -/

/-- What an address that memory does not list reads as. DESIGN CHOICE for BUF_k, unsafe, log entry 6; for an
index word it is the reset value of R62. -/
def unlistedByte : Byte := 0

/-- The byte at an address. -/
def memGet : List Host.Cell → Nat → Byte
  | [], _ => unlistedByte
  | (b, v) :: m, a => if a = b then v else memGet m a

/-- The cell to list for a byte: none if it is what an unlisted address reads as. -/
def cellOf (a : Nat) (v : Byte) (m : List Host.Cell) : List Host.Cell :=
  if v = unlistedByte then m else (a, v) :: m

/-- Memory with one byte written, kept in canonical form. -/
def memSet : List Host.Cell → Nat → Byte → List Host.Cell
  | [], a, v => cellOf a v []
  | (b, w) :: m, a, v =>
    if a < b then cellOf a v ((b, w) :: m)
    else if a = b then cellOf a v m
    else (b, w) :: memSet m a v

/-- Every cell of `m` is above address `a`. -/
def memAbove (a : Nat) (m : List Host.Cell) : Bool := m.all fun c => decide (a < c.1)

/-- The canonical form: addresses strictly rising, no cell equal to what an unlisted address reads as. -/
def Memory.wf : List Host.Cell → Bool
  | [] => true
  | (a, v) :: m => decide (v ≠ unlistedByte) && memAbove a m && Memory.wf m

/-- MemRead(a, 4), little-endian (R11, R101). -/
def memRead4 (m : List Host.Cell) (a : Nat) : Word :=
  memGet m (a + 3) ++ memGet m (a + 2) ++ memGet m (a + 1) ++ memGet m a

/-- MemWrite(a, 4, v), little-endian (R11, R101). -/
def memWrite4 (m : List Host.Cell) (a : Nat) (v : Word) : List Host.Cell :=
  memSet (memSet (memSet (memSet m a (v.extractLsb' 0 8)) (a + 1) (v.extractLsb' 8 8))
    (a + 2) (v.extractLsb' 16 8)) (a + 3) (v.extractLsb' 24 8)

/-! ### Rings -/

/-- RING_BASE_k (R102). -/
def ringBase (l : Launch) : RingId → Nat
  | .rx => l.ringBaseRx
  | .tx => l.ringBaseTx

/-- N_k (R60, R230). -/
def ringCap (l : Launch) : RingId → Nat
  | .rx => l.nrx
  | .tx => l.ntx

/-- The address of BUF_k[i] (R102). -/
def ringSlotAddr (l : Launch) (k : RingId) (i : Nat) : Nat := ringBase l k + 8 + i

/-- The write index W_k at RING_BASE_k + 0 (R102). -/
def State.ringW (s : State) (k : RingId) : Word := memRead4 s.mem (ringBase s.launch k)

/-- The read index R_k at RING_BASE_k + 4 (R102). -/
def State.ringR (s : State) (k : RingId) : Word := memRead4 s.mem (ringBase s.launch k + 4)

/-- MemWrite(RING_BASE_k + 0, 4, v). -/
def State.setRingW (s : State) (k : RingId) (v : Word) : State :=
  { s with mem := memWrite4 s.mem (ringBase s.launch k) v }

/-- MemWrite(RING_BASE_k + 4, 4, v). -/
def State.setRingR (s : State) (k : RingId) (v : Word) : State :=
  { s with mem := memWrite4 s.mem (ringBase s.launch k + 4) v }

/-- MemRead(RING_BASE_k + 8 + i, 1), for the slots i = 0..N_k - 1 that exist (R60, R102). -/
def readRingSlot (s : State) (k : RingId) (i : Nat) : Except Stop Byte :=
  if i < ringCap s.launch k then .ok (memGet s.mem (ringSlotAddr s.launch k i)) else .error .noSuchRingSlot

/-- MemWrite(RING_BASE_k + 8 + i, 1, b), for the slots that exist (R60, R102). -/
def writeRingSlot (s : State) (k : RingId) (i : Nat) (b : Byte) : Except Stop State :=
  if i < ringCap s.launch k then .ok { s with mem := memSet s.mem (ringSlotAddr s.launch k i) b }
  else .error .noSuchRingSlot

/-- (x + 1) mod N: the index after `x` (R12, R230). -/
def nextIndex (l : Launch) (k : RingId) (x : Word) : Nat := (x.toNat + 1) % ringCap l k

/-- (w + 1) mod N = r: full, as seen from a write index and a read index (R230). -/
def ringFull (l : Launch) (k : RingId) (w r : Word) : Bool := nextIndex l k w == r.toNat

/-- count = (W + N - R) mod N (R12, R230). -/
def ringCount (l : Launch) (k : RingId) (w r : Word) : Nat :=
  (w.toNat + ringCap l k - r.toNat) % ringCap l k

/-- W_k <- (W_k + 1) mod N: the producer publishes (R233). -/
def State.publish (s : State) (k : RingId) : State :=
  s.setRingW k (BitVec.ofNat 32 (nextIndex s.launch k (s.ringW k)))

/-- R_k <- (R_k + 1) mod N: the consumer releases the slot (R234). -/
def State.release (s : State) (k : RingId) : State :=
  s.setRingR k (BitVec.ofNat 32 (nextIndex s.launch k (s.ringR k)))

/-- put_k(b) inside one atomic step (R232, R233): data slot first, then W; nothing if the ring is full. -/
def putByte (s : State) (k : RingId) (b : Byte) : Except Stop State :=
  if ringFull s.launch k (s.ringW k) (s.ringR k) then .ok s
  else (writeRingSlot s k (s.ringW k).toNat b).map (State.publish · k)

/-- get_k() of a non-empty ring inside one atomic step (R232, R234): data slot first, then R. -/
def getByte (s : State) (k : RingId) : Except Stop (Byte × State) :=
  (readRingSlot s k (s.ringR k).toNat).map fun b => (b, s.release k)

/-! ### Registers -/

/-- The stored word of a slot. UART_DATA reads RXDATA (R50). -/
def State.stored (s : State) : Slot → Word
  | .scratch => s.scratch
  | .flashAcr => s.flashAcr
  | .clkCr => s.clkCr
  | .clkPllcfg => s.clkPllcfg
  | .clkCfgr => s.clkCfgr
  | .penr => s.penr
  | .pwrCr => s.pwrCr
  | .scr => s.scr
  | .tickCtrl => s.tickCtrl
  | .tickReload => s.tickReload
  | .tickCount => s.tickCount
  | .uartStat => s.uartStat
  | .uartData => s.rxData.setWidth 32
  | .uartCtrl => s.uartCtrl
  | .uartBaud => s.uartBaud

/-- The value REG[r] reads: reserved bits 0, hardwired bits 1 (R35, R39). -/
def State.regValue (s : State) (r : Slot) : Word :=
  (s.stored r &&& (r.rwMask ||| r.roMask)) ||| r.hardwired

/-- The state after a read of REG[r]: a UART_DATA read clears RXNE and ORE, no other read has an effect (R50,
R104). -/
def State.afterRead (s : State) (r : Slot) : State :=
  if r = .uartData then { s with uartStat := withBit (withBit s.uartStat 0 false) 2 false } else s

/-- CLK_CR after a write of `v`: the RW bits take it; XOSCON 1→0 clears XOSCRDY, PLLON 1→0 clears PLLRDY (R39). -/
def clkCrAfterWrite (old v : Word) : Word :=
  let w := rwMerge (Slot.rwMask .clkCr) old v
  let w := if old.getLsbD 8 && !v.getLsbD 8 then withBit w 9 false else w
  if old.getLsbD 16 && !v.getLsbD 16 then withBit w 17 false else w

/-- REG[r] <- v: RW bits take `v`, RO bits are ignored, with the slot's side effects (R35, R39, R50). -/
def State.regWrite (s : State) (r : Slot) (v : Word) : State :=
  match r with
  | .scratch => { s with scratch := rwMerge (Slot.rwMask .scratch) s.scratch v }
  | .flashAcr => { s with flashAcr := rwMerge (Slot.rwMask .flashAcr) s.flashAcr v }
  | .clkCr => { s with clkCr := clkCrAfterWrite s.clkCr v }
  | .clkPllcfg => { s with clkPllcfg := rwMerge (Slot.rwMask .clkPllcfg) s.clkPllcfg v }
  | .clkCfgr => { s with clkCfgr := rwMerge (Slot.rwMask .clkCfgr) s.clkCfgr v }
  | .penr => { s with penr := rwMerge (Slot.rwMask .penr) s.penr v }
  | .pwrCr => { s with pwrCr := rwMerge (Slot.rwMask .pwrCr) s.pwrCr v }
  | .scr => { s with scr := rwMerge (Slot.rwMask .scr) s.scr v }
  | .tickCtrl => { s with tickCtrl := rwMerge (Slot.rwMask .tickCtrl) s.tickCtrl v }
  | .tickReload => { s with tickReload := rwMerge (Slot.rwMask .tickReload) s.tickReload v }
  | .tickCount => s
  | .uartStat => s
  | .uartData => { s with txData := v.setWidth 8, uartStat := withBit s.uartStat 1 false }
  | .uartCtrl => { s with uartCtrl := rwMerge (Slot.rwMask .uartCtrl) s.uartCtrl v }
  | .uartBaud => { s with uartBaud := rwMerge (Slot.rwMask .uartBaud) s.uartBaud v }

/-- The first check of `devWrite(r, v)` that fails, in the order of R167 and R311. -/
def writeFault (s : State) (r : Slot) (v : Word) : Option FaultCode :=
  if r.isPeripheral && decide (s.clockState ≠ .switched) then some .peripheralBeforeSwitched
  else if r.isUart && !s.uartEn then some .peripheralClockOff
  else if v &&& r.reservedMask ≠ 0 then some .reservedBitWrite
  else if r.reservedCode v then some .reservedFieldValue
  else if r = .clkPllcfg ∧ s.pllOn = true ∧ v &&& r.rwMask ≠ s.clkPllcfg &&& r.rwMask then
    some .pllReconfigWhileOn
  else if r = .clkCr ∧ v.getLsbD 16 = true ∧ s.pllOn = false ∧ (s.pllM = 0 ∨ s.pllN = 0 ∨ s.pllP = 0) then
    some .pllConfigIllegal
  else if r = .uartData ∧ s.txe = false then some .txWhileBusy
  else none

/-- `devWrite(r, v)`: the write every agent ends in (R167). -/
def devWrite (s : State) (r : Slot) (v : Word) : Except Stop State :=
  match writeFault s r v with
  | some c => .error (.raise c)
  | none => .ok (s.regWrite r v)

/-- `devRead(r)`: the value and the state after the read's side effects (R167). -/
def devRead (s : State) (r : Slot) : Except Stop (Word × State) :=
  if r.isUart && !s.uartEn then .error (.raise .peripheralClockOff)
  else .ok (s.regValue r, s.afterRead r)

/-- `hostRead(n)`: a HOST read of slot number `n`, its checks in the order of R165. -/
def hostRead (s : State) (n : Nat) : Except Stop (Word × State) :=
  match Slot.ofNumber n with
  | none => .error (.raise .unmappedSlot)
  | some r => if s.chen && r == .uartData then .error (.raise .ownershipViolation) else devRead s r

/-- `hostWrite(n, v)`: a HOST write to slot number `n`, its checks in the order of R166. -/
def hostWrite (s : State) (n : Nat) (v : Word) : Except Stop State :=
  match Slot.ofNumber n with
  | none => .error (.raise .unmappedSlot)
  | some r =>
    if r.notHosts then .error (.raise .ownershipViolation)
    else if s.chen && r.isUart then .error (.raise .ownershipViolation)
    else devWrite s r v

/-! ### The host port -/

/-- A CMD write of `c` (R30): CommandWhileBusy, then IllegalCommand, then the command is latched with ARG and
BUSY <- 1 (R56, R139, R311). -/
def cmdWrite (s : State) (c : Word) : Except Stop State :=
  if s.busy then .error (.raise .commandWhileBusy)
  else match decode c with
    | .error _ => .error (.raise .illegalCommand)
    | .ok _ => .ok { s with busy := true, current := Current.start c s.arg }

/-- HOST's issue step: ARG, then CMD, then hpc <- hpc + 1, all in one step (R34). -/
def issue (s : State) : Except Stop State :=
  match s.launch.program[s.hpc]? with
  | none => .ok s
  | some (c, a) => (cmdWrite { s with arg := a } c).map fun t => { t with hpc := s.hpc + 1 }

/-! ### The frequency checks -/

/-- The frequency checks after a step, if no fault is recorded yet: BusOverclock, then FlashWaitStates (R312). -/
def State.checkFrequencies (s : State) : State :=
  match s.fault with
  | some _ => s
  | none =>
    if s.overclocked then s.raise .busOverclock
    else if s.flashTooSlow then s.raise .flashWaitStates
    else s

/-- The frequency checks after a step that gave a state. -/
def checked : Result → Result
  | .next s => .next s.checkFrequencies
  | .fault r => .fault r
  | .refused r => .refused r

/-- The launch state of a power-on reset: "The same check applies to the launch state" (R312, R340, R342). -/
def State.atLaunch (l : Launch) (d : Draws) (lineIn : List Byte) (schedule : List Move) : State :=
  (State.afterReset l d lineIn [] schedule 0).checkFrequencies

end Sys2Proof.Machine
end

