-- ==== Sys2Proof/Machine/Devices.lean ====
section
/-! DEFINITION. The device agents OSC, PLL and CLKSW (spec/42_clock_sequencer.md R210 to R212), TICK
(spec/45_system.md R294), UTX and URX (spec/44_serial_channel.md R270, R271), and the environment event WAKE
(R205, R206). Their enabling conditions beside "running" (spec/60_exceptions.md R321) stand with them. -/

namespace Sys2Proof.Machine

/-- OSC is enabled (R210). -/
def oscEnabled (s : State) : Bool := s.xoscOn && !s.xoscRdy && s.launch.xtalPresent

/-- OSC: XOSCRDY <- 1 (R210). -/
def oscStep (s : State) : State := { s with clkCr := withBit s.clkCr 9 true }

/-- PLL is enabled (R211). -/
def pllEnabled (s : State) : Bool :=
  s.pllOn && !s.pllRdy && s.launch.pllLocks && (!s.pllSrc || s.xoscRdy)

/-- PLL: PLLRDY <- 1 (R211). -/
def pllStep (s : State) : State := { s with clkCr := withBit s.clkCr 17 true }

/-- ready(code) of R212. The reserved code 3 names no source and is never ready, log entry 16. -/
def State.sourceReady (s : State) (code : BitVec 2) : Bool :=
  if code = 0 then true else if code = 1 then s.xoscRdy else if code = 2 then s.pllRdy else false

/-- CLKSW is enabled (R212). -/
def clkswEnabled (s : State) : Bool := decide (s.sws ≠ s.sw) && s.sourceReady s.sw

/-- CLKSW: SWS <- SW (R212). -/
def clkswStep (s : State) : State := { s with clkCfgr := withField s.clkCfgr 2 s.sw }

/-- TICK is enabled (R294). -/
def tickEnabled (s : State) : Bool := s.tickEn && decide (s.tickReload ≠ 0)

/-- TICK: TICKPEND <- 1 (R294). -/
def tickStep (s : State) : State := { s with tickPend := true }

/-- UTX is enabled (R270). -/
def utxEnabled (s : State) : Bool := s.uartRuns && !s.txe

/-- UTX: LINE_OUT <- LINE_OUT ++ [TXDATA], TXE <- 1 (R270). -/
def utxStep (s : State) : State :=
  { s with lineOut := s.lineOut ++ [s.txData], uartStat := withBit s.uartStat 1 true }

/-- URX is enabled (R271). -/
def urxEnabled (s : State) : Bool := s.uartRuns && !s.lineIn.isEmpty

/-- URX: take the next byte of LINE_IN; if RXNE = 1 it is lost and ORE <- 1 (R271). -/
def urxStep (s : State) : State :=
  match s.lineIn with
  | [] => s
  | b :: rest =>
    if s.rxne then { s with lineIn := rest, uartStat := withBit s.uartStat 2 true }
    else { s with lineIn := rest, rxData := b, uartStat := withBit s.uartStat 0 true }

/-- WAKE from stop (R205): continue after the wait; under revertToInternal the clock goes back to the internal
oscillator. -/
def wakeFromStop (s : State) : State :=
  let t : State := { s with pstate := .run, seqState := .idle }
  match s.launch.stopPolicy with
  | .retain => t
  | .revertToInternal =>
    { t with
      clkCfgr := withField (withField s.clkCfgr 0 0#2) 2 0#2
      clkCr := withBit (withBit (withBit (withBit s.clkCr 16 false) 17 false) 8 false) 9 false }

/-- WAKE from standby (R206): the reset of R340, keeping LINE_IN, LINE_OUT and the launch parameters. What R340
leaves unspecified is a free value, log entry 5. -/
def wakeFromStandby (s : State) : State :=
  State.afterReset s.launch
    { res := Config.freeWord s.freeCount, scratch := Config.freeWord (s.freeCount + 1),
      rxData := Config.freeByte s.freeCount, txData := Config.freeByte (s.freeCount + 1) }
    s.lineIn s.lineOut s.schedule (s.freeCount + 2)

/-- WAKE (R205, R206). In RUN there is nothing to wake. -/
def wakeStep (s : State) : State :=
  match s.pstate with
  | .run => s
  | .stop => wakeFromStop s
  | .standby => wakeFromStandby s

end Sys2Proof.Machine
end

