-- ==== Sys2Proof/Machine/RegisterAccess.lean ====
section
/-! DEFINITION. The register access commands RD, WR, RDBIT, WRBIT and POLL (spec/41_register_access.md R160 to
R164). Each meaning is the command's current HOST micro-step (spec/10_state.md R56). -/

namespace Sys2Proof.Machine

/-- RD: `ms1: done(hostRead(s))` (R160). -/
def execRd (slot : Nat) (s : State) : Result :=
  match s.current.ms with
  | .ms1 => commit s (do let (v, t) ← hostRead s slot; pure (t.doneWith v))
  | _ => .fault .noSuchMicroStep

/-- WR: `ms1: hostWrite(s, ARG); done()` (R161), with the copy of ARG (R31). -/
def execWr (slot : Nat) (s : State) : Result :=
  match s.current.ms with
  | .ms1 => commit s (do let t ← hostWrite s slot s.current.arg; pure t.done)
  | _ => .fault .noSuchMicroStep

/-- RDBIT: `ms1: t <- hostRead(s); done(zext_32(t[i]))` (R162). -/
def execRdbit (slot bit : Nat) (s : State) : Result :=
  match s.current.ms with
  | .ms1 => commit s (do
      let (v, t) ← hostRead s slot
      pure (t.doneWith ((BitVec.ofBool (v.getLsbD bit)).setWidth 32)))
  | _ => .fault .noSuchMicroStep

/-- WRBIT: a read, then a write of the changed stale copy, in two micro-steps (R163, R109). -/
def execWrbit (slot bit : Nat) (v : Bool) (s : State) : Result :=
  match s.current.ms with
  | .ms1 => commit s (do
      let (w, t) ← hostRead s slot
      pure { t with current := { t.current with t := w, ms := .ms2 } })
  | .ms2 => commit s (do let t ← hostWrite s slot (withBit s.current.t bit v); pure t.done)
  | _ => .fault .noSuchMicroStep

/-- POLL: `ms1: t <- hostRead(s); if t[i] = v then done() else spin` (R164). A spin keeps the read's side effects
(R13). -/
def execPoll (slot bit : Nat) (v : Bool) (s : State) : Result :=
  match s.current.ms with
  | .ms1 => commit s (do
      let (w, t) ← hostRead s slot
      pure (if w.getLsbD bit = v then t.done else t))
  | _ => .fault .noSuchMicroStep

end Sys2Proof.Machine
end

