-- ==== Sys2Proof/Machine/Ring.lean ====
section
/-! DEFINITION. The ring buffer commands TRYPUT, TRYGET, ISFULL, ISEMPTY and COUNT (spec/43_ring_buffer.md R231 to
R237). Each meaning is the command's current HOST micro-step (spec/10_state.md R56). -/

namespace Sys2Proof.Machine

/-- TRYPUT: read R, write the data slot, publish W (R233). The own index W is read where it is used (R232). -/
def execTryput (k : RingId) (b : Byte) (s : State) : Result :=
  match s.current.ms with
  | .ms1 =>
    if s.chen && k == .rx then commit s (.error (.raise .ownershipViolation))
    else .next { s with current := { s.current with rr := s.ringR k, ms := .ms2 } }
  | .ms2 =>
    if ringFull s.launch k (s.ringW k) s.current.rr then .next (s.doneWith 0)
    else commit s (do let t ← writeRingSlot s k (s.ringW k).toNat b; pure (t.goto .ms3))
  | .ms3 => .next ((s.publish k).doneWith 1)
  | _ => .fault .noSuchMicroStep

/-- TRYGET: read W, read the data slot, publish R (R234). -/
def execTryget (k : RingId) (s : State) : Result :=
  match s.current.ms with
  | .ms1 =>
    if s.chen && k == .tx then commit s (.error (.raise .ownershipViolation))
    else .next { s with current := { s.current with ww := s.ringW k, ms := .ms2 } }
  | .ms2 =>
    if s.current.ww = s.ringR k then .next (s.doneWith 0)
    else commit s (do
      let b ← readRingSlot s k (s.ringR k).toNat
      pure { s with current := { s.current with b := b, ms := .ms3 } })
  | .ms3 => .next ((s.release k).doneWith (0x100#32 ||| s.current.b.setWidth 32))
  | _ => .fault .noSuchMicroStep

/-- ISFULL: `done(if (cnt + 1) mod N = rr then 1 else 0)` (R235). -/
def execIsfull (k : RingId) (s : State) : Result :=
  match s.current.ms with
  | .ms1 => .next { s with current := { s.current with cnt := s.ringW k, ms := .ms2 } }
  | .ms2 => .next (s.doneWith (if ringFull s.launch k s.current.cnt (s.ringR k) then 1 else 0))
  | _ => .fault .noSuchMicroStep

/-- ISEMPTY: `done(if cnt = rr then 1 else 0)` (R236). -/
def execIsempty (k : RingId) (s : State) : Result :=
  match s.current.ms with
  | .ms1 => .next { s with current := { s.current with cnt := s.ringW k, ms := .ms2 } }
  | .ms2 => .next (s.doneWith (if s.current.cnt = s.ringR k then 1 else 0))
  | _ => .fault .noSuchMicroStep

/-- COUNT: `done((cnt + N - rr) mod N)` (R237). -/
def execCount (k : RingId) (s : State) : Result :=
  match s.current.ms with
  | .ms1 => .next { s with current := { s.current with cnt := s.ringW k, ms := .ms2 } }
  | .ms2 => .next (s.doneWith (BitVec.ofNat 32 (ringCount s.launch k s.current.cnt (s.ringR k))))
  | _ => .fault .noSuchMicroStep

end Sys2Proof.Machine
end

