-- ==== Sys2Proof/Machine/Sequencer.lean ====
section
/-! DEFINITION. The commands BRINGUP and PDOWN and the steps of the clock sequencer CSEQ
(spec/42_clock_sequencer.md R182 to R204). -/

namespace Sys2Proof.Machine

/-- BRINGUP: start CSEQ at S1_FLASH; complete when SEQ_STATE is IDLE again (R182). -/
def execBringup (s : State) : Result :=
  match s.current.ms with
  | .ms1 => .next { s.goto .ms2 with seqState := .s1Flash }
  | .ms2 => .next (if s.seqState = .idle then s.done else s)
  | _ => .fault .noSuchMicroStep

/-- PDOWN: start CSEQ at P1_PWR_EN; complete when SEQ_STATE is IDLE and PSTATE is RUN (R200). CSEQ reads the mode
from the latched word. -/
def execPdown (_mode : PowerMode) (s : State) : Result :=
  match s.current.ms with
  | .ms1 => .next { s.goto .ms2 with seqState := .p1PwrEn }
  | .ms2 => .next (if s.seqState = .idle ∧ s.pstate = .run then s.done else s)
  | _ => .fault .noSuchMicroStep

/-- The CLK_PLLCFG value of S3_PLL_CFG: external reference, the variant's dividers and multiplier (R185). -/
def pllCfgValue (v : Variant) : Word :=
  (1#32 <<< 24) ||| (v.pllP.setWidth 32 <<< 16) ||| (v.pllN.setWidth 32 <<< 6) ||| v.pllM.setWidth 32

/-- The TICK_RELOAD value of S6_TICK_ARM: F_TARGET div 1000 (R194). The rule states no value where that does not
fit 32 bits: a free value, log entry 15. -/
def reloadValue (v : Variant) : Word :=
  if v.fTarget / 1000 < 2 ^ 32 then BitVec.ofNat 32 (v.fTarget / 1000) else Config.reloadOverflow v.fTarget

/-- CLK_CFGR's word with its three prescaler fields replaced in one write (R188, R198). -/
def withPrescaler (w : Word) (p : Prescaler) : Word :=
  withField (withField (withField w 4 p.hpre) 8 p.ppre1) 11 p.ppre2

/-- A CSEQ write of `v` to slot `r` followed by SEQ_STATE <- q, in one atomic step (R196, R198). -/
def seqWrite (s : State) (r : Slot) (v : Word) (q : SeqState) : Except Stop State :=
  (devWrite s r v).map fun t => { t with seqState := q }

/-- S1_FLASH (R183). -/
def seqS1Flash (s : State) : Except Stop State :=
  seqWrite s .flashAcr (withField (s.regValue .flashAcr) 0 s.launch.variant.latency) .s2XoscOn

/-- S2_XOSC_ON (R184). -/
def seqS2XoscOn (s : State) : Except Stop State :=
  seqWrite s .clkCr (withBit (s.regValue .clkCr) 8 true) .s2XoscWait

/-- S2_XOSC_WAIT (R184): spin until CLK_CR bit 9. -/
def seqS2XoscWait (s : State) : State :=
  if (s.regValue .clkCr).getLsbD 9 then { s with seqState := .s3PllCfg } else s

/-- S3_PLL_CFG (R185). -/
def seqS3PllCfg (s : State) : Except Stop State :=
  seqWrite s .clkPllcfg (pllCfgValue s.launch.variant) .s3PllOn

/-- S3_PLL_ON (R186). -/
def seqS3PllOn (s : State) : Except Stop State :=
  seqWrite s .clkCr (withBit (s.regValue .clkCr) 16 true) .s3PllWait

/-- S3_PLL_WAIT (R187): spin until CLK_CR bit 17. -/
def seqS3PllWait (s : State) : State :=
  if (s.regValue .clkCr).getLsbD 17 then
    { s with seqState := if s.launch.variant.prescInter.isSome then .s4PrescInter else .s4PrescFinal }
  else s

/-- S4_PRESC_INTER (R188), present only where PRESC_INTER is. Without one no run reaches it; it writes
nothing. DESIGN CHOICE, log entry 30. -/
def seqS4PrescInter (s : State) : Except Stop State :=
  let next : SeqState := if s.launch.variant.finalAfterSwitch then .s5Switch else .s4PrescFinal
  match s.launch.variant.prescInter with
  | some p => seqWrite s .clkCfgr (withPrescaler (s.regValue .clkCfgr) p) next
  | none => .ok { s with seqState := next }

/-- S4_PRESC_FINAL (R189). -/
def seqS4PrescFinal (s : State) : Except Stop State :=
  seqWrite s .clkCfgr (withPrescaler (s.regValue .clkCfgr) s.launch.variant.prescFinal) .s5Switch

/-- S5_SWITCH (R190): request the PLL. -/
def seqS5Switch (s : State) : Except Stop State :=
  seqWrite s .clkCfgr (withField (s.regValue .clkCfgr) 0 2#2) .s5SwitchWait

/-- S5_SWITCH_WAIT (R191): spin until SWS is the PLL. -/
def seqS5SwitchWait (s : State) : State :=
  if fieldOf (s.regValue .clkCfgr) 2 2 = 2 then
    { s with seqState := if s.launch.variant.finalAfterSwitch then .s4PrescLate else .s6TickArm }
  else s

/-- S4_PRESC_LATE (R193). -/
def seqS4PrescLate (s : State) : Except Stop State :=
  seqWrite s .clkCfgr (withPrescaler (s.regValue .clkCfgr) s.launch.variant.prescFinal) .s6TickArm

/-- S6_TICK_ARM (R194). -/
def seqS6TickArm (s : State) : Except Stop State :=
  seqWrite s .tickReload (reloadValue s.launch.variant) .s6TickEn

/-- S6_TICK_EN (R194). -/
def seqS6TickEn (s : State) : Except Stop State := seqWrite s .tickCtrl 0x00000003#32 .idle

/-- P1_PWR_EN (R201). -/
def seqP1PwrEn (s : State) : Except Stop State :=
  seqWrite s .penr (withBit (s.regValue .penr) 1 true) .p2Mode

/-- P2_MODE (R202): MODE is bit 0 of the latched PDOWN word (R137). DEDUCED, log entry 31. -/
def seqP2Mode (s : State) : Except Stop State :=
  seqWrite s .pwrCr (withBit (s.regValue .pwrCr) 0 (s.current.word.getLsbD 0)) .p3Deep

/-- P3_DEEP (R203). -/
def seqP3Deep (s : State) : Except Stop State :=
  seqWrite s .scr (withBit (s.regValue .scr) 0 true) .p4Wfe

/-- P4_WFE (R204): enter the low-power state; SEQ_STATE stays P4_WFE. -/
def seqP4Wfe (s : State) : State := { s with pstate := if s.pdds then .standby else .stop }

/-- One CSEQ step: the rule that SEQ_STATE names (R65, R196). In IDLE there is none. -/
def cseqStep (s : State) : Except Stop State :=
  match s.seqState with
  | .idle => .ok s
  | .s1Flash => seqS1Flash s
  | .s2XoscOn => seqS2XoscOn s
  | .s2XoscWait => .ok (seqS2XoscWait s)
  | .s3PllCfg => seqS3PllCfg s
  | .s3PllOn => seqS3PllOn s
  | .s3PllWait => .ok (seqS3PllWait s)
  | .s4PrescInter => seqS4PrescInter s
  | .s4PrescFinal => seqS4PrescFinal s
  | .s5Switch => seqS5Switch s
  | .s5SwitchWait => .ok (seqS5SwitchWait s)
  | .s4PrescLate => seqS4PrescLate s
  | .s6TickArm => seqS6TickArm s
  | .s6TickEn => seqS6TickEn s
  | .p1PwrEn => seqP1PwrEn s
  | .p2Mode => seqP2Mode s
  | .p3Deep => seqP3Deep s
  | .p4Wfe => .ok (seqP4Wfe s)

end Sys2Proof.Machine
end

