-- ==== Sys2Proof/Machine/Serial.lean ====
section
/-! DEFINITION. The polled driver commands UINIT, PPUTC and PGETC and the channel commands CHINIT, PUTC and GETC
(spec/44_serial_channel.md R250 to R263). Each meaning is the command's current HOST micro-step (spec/10_state.md
R56). -/

namespace Sys2Proof.Machine

/-- UINIT: enable the UART clock, set the baud divisor, enable the UART (R251). -/
def execUinit (s : State) : Result :=
  match s.current.ms with
  | .ms1 =>
    if s.chen then commit s (.error (.raise .ownershipViolation))
    else commit s (do
      let (w, t) ← devRead s .penr
      pure { t with current := { t.current with t := w, ms := .ms2 } })
  | .ms2 => commit s (do let t ← devWrite s .penr (s.current.t ||| 0x00000001#32); pure (t.goto .ms3))
  | .ms3 => commit s (do let t ← devWrite s .uartBaud s.current.arg; pure (t.goto .ms4))
  | .ms4 => commit s (do let t ← devWrite s .uartCtrl 0x00000001#32; pure t.done)
  | _ => .fault .noSuchMicroStep

/-- CHINIT: create the buffered channel (R257). -/
def execChinit (s : State) : Result :=
  match s.current.ms with
  | .ms1 =>
    if s.chen then commit s (.error (.raise .ownershipViolation))
    else commit s (do
      let (w, t) ← devRead s .penr
      pure { t with current := { t.current with t := w, ms := .ms2 } })
  | .ms2 => commit s (do let t ← devWrite s .penr (s.current.t ||| 0x00000001#32); pure (t.goto .ms3))
  | .ms3 => commit s (do let t ← devWrite s .uartBaud s.current.arg; pure (t.goto .ms4))
  | .ms4 => .next ((s.setRingW .rx 0).goto .ms5)
  | .ms5 => .next ((s.setRingR .rx 0).goto .ms6)
  | .ms6 => .next ((s.setRingW .tx 0).goto .ms7)
  | .ms7 => .next ((s.setRingR .tx 0).goto .ms8)
  | .ms8 => commit s (do let t ← devWrite s .uartCtrl 0x00000003#32; pure (t.goto .ms9))
  | .ms9 => .next { s.done with chen := true }

/-- PPUTC: spin until TXE, then write UART_DATA (R252). -/
def execPputc (b : Byte) (s : State) : Result :=
  match s.current.ms with
  | .ms1 =>
    if s.chen then commit s (.error (.raise .ownershipViolation))
    else commit s (do
      let (w, t) ← devRead s .uartStat
      pure (if w.getLsbD 1 then t.goto .ms2 else t))
  | .ms2 => commit s (do let t ← devWrite s .uartData (b.setWidth 32); pure t.done)
  | _ => .fault .noSuchMicroStep

/-- PGETC: spin until RXNE, then read UART_DATA (R253). -/
def execPgetc (s : State) : Result :=
  match s.current.ms with
  | .ms1 =>
    if s.chen then commit s (.error (.raise .ownershipViolation))
    else commit s (do
      let (w, t) ← devRead s .uartStat
      pure (if w.getLsbD 0 then t.goto .ms2 else t))
  | .ms2 => commit s (do
      let (w, t) ← devRead s .uartData
      pure (t.doneWith ((w.extractLsb' 0 8).setWidth 32)))
  | _ => .fault .noSuchMicroStep

/-- PUTC: queue the byte, retrying while the TX ring is full, then set TXIE (R260). -/
def execPutc (b : Byte) (s : State) : Result :=
  match s.current.ms with
  | .ms1 =>
    if s.chen then .next { s with current := { s.current with rr := s.ringR .tx, ms := .ms2 } }
    else commit s (.error (.raise .channelOff))
  | .ms2 =>
    if ringFull s.launch .tx (s.ringW .tx) s.current.rr then .next (s.goto .ms1)
    else commit s (do let t ← writeRingSlot s .tx (s.ringW .tx).toNat b; pure (t.goto .ms3))
  | .ms3 => .next ((s.publish .tx).goto .ms4)
  | .ms4 => commit s (do
      let (w, t) ← devRead s .uartCtrl
      pure { t with current := { t.current with t := w, ms := .ms5 } })
  | .ms5 => commit s (do let t ← devWrite s .uartCtrl (s.current.t ||| 0x00000004#32); pure t.done)
  | _ => .fault .noSuchMicroStep

/-- GETC: take the oldest byte of the RX ring, retrying while it is empty (R261). -/
def execGetc (s : State) : Result :=
  match s.current.ms with
  | .ms1 =>
    if s.chen then .next { s with current := { s.current with ww := s.ringW .rx, ms := .ms2 } }
    else commit s (.error (.raise .channelOff))
  | .ms2 =>
    if s.current.ww = s.ringR .rx then .next (s.goto .ms1)
    else commit s (do
      let b ← readRingSlot s .rx (s.ringR .rx).toNat
      pure { s with current := { s.current with b := b, ms := .ms3 } })
  | .ms3 => .next ((s.release .rx).doneWith (s.current.b.setWidth 32))
  | _ => .fault .noSuchMicroStep

end Sys2Proof.Machine
end

