-- ==== Sys2Proof/Machine/System.lean ====
section
/-! DEFINITION. The interrupt mask commands IRQOFF and IRQON and the tick counter command RDTICK
(spec/45_system.md R290 to R292). -/

namespace Sys2Proof.Machine

/-- IRQOFF: `ms1: IMASK <- 1 ; done()` (R290). -/
def execIrqoff (s : State) : Result :=
  match s.current.ms with
  | .ms1 => .next { s.done with imask := true }
  | _ => .fault .noSuchMicroStep

/-- IRQON: `ms1: IMASK <- 0 ; done()` (R291). -/
def execIrqon (s : State) : Result :=
  match s.current.ms with
  | .ms1 => .next { s.done with imask := false }
  | _ => .fault .noSuchMicroStep

/-- RDTICK: `ms1: done(REG[TICK_COUNT])` (R292). -/
def execRdtick (s : State) : Result :=
  match s.current.ms with
  | .ms1 => .next (s.doneWith (s.regValue .tickCount))
  | _ => .fault .noSuchMicroStep

end Sys2Proof.Machine
end

