-- ==== Sys2Proof/Machine/Dispatch.lean ====
section
/-! DEFINITION. One arm per command: HOST's current micro-step of command `i` (spec/10_state.md R56). -/

namespace Sys2Proof.Machine

/-- HOST's current micro-step of command `i`. -/
def exec (i : Instr) (s : State) : Host.Outcome State Fault Refusal :=
  match i with
  | .rd slot => Sys2Proof.Machine.execRd slot s
  | .wr slot => Sys2Proof.Machine.execWr slot s
  | .rdbit slot bit => Sys2Proof.Machine.execRdbit slot bit s
  | .wrbit slot bit v => Sys2Proof.Machine.execWrbit slot bit v s
  | .poll slot bit v => Sys2Proof.Machine.execPoll slot bit v s
  | .tryput ring byte => Sys2Proof.Machine.execTryput ring byte s
  | .tryget ring => Sys2Proof.Machine.execTryget ring s
  | .isfull ring => Sys2Proof.Machine.execIsfull ring s
  | .isempty ring => Sys2Proof.Machine.execIsempty ring s
  | .count ring => Sys2Proof.Machine.execCount ring s
  | .uinit => Sys2Proof.Machine.execUinit s
  | .chinit => Sys2Proof.Machine.execChinit s
  | .pputc byte => Sys2Proof.Machine.execPputc byte s
  | .pgetc => Sys2Proof.Machine.execPgetc s
  | .putc byte => Sys2Proof.Machine.execPutc byte s
  | .getc => Sys2Proof.Machine.execGetc s
  | .bringup => Sys2Proof.Machine.execBringup s
  | .pdown mode => Sys2Proof.Machine.execPdown mode s
  | .irqoff => Sys2Proof.Machine.execIrqoff s
  | .irqon => Sys2Proof.Machine.execIrqon s
  | .rdtick => Sys2Proof.Machine.execRdtick s

end Sys2Proof.Machine
end

