-- ==== Sys2Proof/Machine/Interrupts.lean ====
section
/-! DEFINITION. The interrupt engine IRQE (spec/60_exceptions.md R301 to R309): delivery, the tick handler
(spec/45_system.md R296) and the UART handler (spec/44_serial_channel.md R276 to R278). Entry saves nothing and
return restores nothing: a handler run is one atomic step (R306, R309). -/

namespace Sys2Proof.Machine

/-- IRQE's interrupt is to be delivered: tickIrq, or CHEN = 1 and uartIrq, unmasked (R305). -/
def State.irqPending (s : State) : Bool := !s.imask && (s.tickIrq || (s.chen && s.uartIrq))

/-- TICK_HANDLER: TICKS <- (TICKS + 1) mod 2^32, TICKPEND <- 0 (R296). -/
def tickHandler (s : State) : State := { s with tickCount := s.tickCount + 1, tickPend := false }

/-- RX_RULE: move a received byte into the RX ring, or drop it if the ring is full (R277). -/
def rxRule (s : State) : Except Stop State :=
  if s.rxne && s.rxie then do
    let (w, t) ← devRead s .uartData
    putByte t .rx (w.extractLsb' 0 8)
  else .ok s

/-- TX_RULE: send the oldest byte of the TX ring, or clear TXIE if there is none (R278). -/
def txRule (s : State) : Except Stop State :=
  if s.txe && s.txie then
    if s.ringW .tx ≠ s.ringR .tx then do
      let (b, t) ← getByte s .tx
      devWrite t .uartData (b.setWidth 32)
    else devWrite s .uartCtrl (withBit (s.regValue .uartCtrl) 2 false)
  else .ok s

/-- UART_HANDLER: the receive rule, then the transmit rule, in one step (R276). -/
def uartHandler (s : State) : Except Stop State := do
  let t ← rxRule s
  txRule t

/-- One IRQE step: the tick handler if tickIrq holds, else the UART handler (R307). -/
def irqeStep (s : State) : Except Stop State :=
  if s.tickIrq then .ok (tickHandler s) else uartHandler s

end Sys2Proof.Machine
end

