-- ==== Sys2Proof/Machine/Agents.lean ====
section
/-! DEFINITION. When each agent may step and what its step does (spec/60_exceptions.md R321, spec/00_scope.md R13),
and how the schedule held in State picks the next move (log entry 1). -/

namespace Sys2Proof.Machine

/-- HOST has a step: the issue step (R34), or a micro-step while SEQ_STATE = IDLE (R196, R321). The guards of
BRINGUP's and PDOWN's ms2 (R182, R200) are that condition. -/
def hostEnabled (s : State) : Bool :=
  if s.busy then decide (s.seqState = .idle) else decide (s.hpc < s.launch.program.length)

/-- A move is enabled (R321). A write to the port by a host outside the program model needs only a running block
(log entry 2). -/
def enabled (m : Move) (s : State) : Bool :=
  match m with
  | .host => s.running && hostEnabled s
  | .cseq => s.running && decide (s.seqState ≠ .idle)
  | .irqe => s.running && s.irqPending
  | .osc => s.running && oscEnabled s
  | .pll => s.running && pllEnabled s
  | .clksw => s.running && clkswEnabled s
  | .tick => s.running && tickEnabled s
  | .utx => s.running && utxEnabled s
  | .urx => s.running && urxEnabled s
  | .wake => decide (s.pstate ≠ .run) && s.fault.isNone
  | .portCmd _ => s.running
  | .portArg _ => s.running

/-- HOST's micro-step: the latched word decoded, and its command's current micro-step (R56). A latched word that
decodes to nothing is no state a run reaches; it raises IllegalCommand as issuing it does (R139). DESIGN
CHOICE, safe, log entry 28. -/
def hostMicroStep (s : State) : Result :=
  match decode s.current.word with
  | .ok i => exec i s
  | .error _ => commit s (.error (.raise .illegalCommand))

/-- HOST's step: a micro-step while BUSY = 1, else the issue step (R321). -/
def hostStep (s : State) : Result := if s.busy then hostMicroStep s else commit s (issue s)

/-- The step of an enabled move, before the frequency checks (R321). -/
def perform (m : Move) (s : State) : Result :=
  match m with
  | .host => hostStep s
  | .cseq => commit s (cseqStep s)
  | .irqe => commit s (irqeStep s)
  | .osc => .next (oscStep s)
  | .pll => .next (pllStep s)
  | .clksw => .next (clkswStep s)
  | .tick => .next (tickStep s)
  | .utx => .next (utxStep s)
  | .urx => .next (urxStep s)
  | .wake => .next (wakeStep s)
  | .portCmd c => commit s (cmdWrite s c)
  | .portArg v => .next { s with arg := v }

/-- A move in a state: its step and the frequency checks after it (R312); where it is not enabled, no step: the
state stays (R13, log entry 1). -/
def moveStep (m : Move) (s : State) : Result := if enabled m s then checked (perform m s) else .next s

/-- The move the schedule names next; when it names none, a free value (R321, log entry 1). -/
def State.nextMove (s : State) : Move :=
  match s.schedule with
  | m :: _ => m
  | [] => Config.freeMove s.freeCount

/-- The state once its next move is taken from the schedule. -/
def State.takeMove (s : State) : State :=
  match s.schedule with
  | _ :: rest => { s with schedule := rest }
  | [] => { s with freeCount := s.freeCount + 1 }

end Sys2Proof.Machine
end

