-- ==== Sys2Proof/Machine/Step.lean ====
section
/-! DEFINITION. One step of the block (spec/00_scope.md R13), and the state in which the next step runs a given
command. -/

namespace Sys2Proof.Machine

/-- One step: a faulted block is halted (R313); else the scheduled move (R321). -/
def step (s : State) : Host.Outcome State Fault Refusal :=
  match s.fault with
  | some c => .fault (.halted c)
  | none => moveStep s.nextMove s.takeMove

/-- `s` with the word `w` (its low `nbits` bits) latched as the current command and HOST scheduled next, in a
running block with an idle sequencer: the state HOST's issue step of that word leaves (R30, R34). Log entry 4. -/
def State.withFetchWord (s : State) (nbits w : Nat) : State :=
  { s with
    fault := none
    pstate := .run
    seqState := .idle
    busy := true
    current := Current.start (BitVec.ofNat 32 (w % 2 ^ nbits)) s.arg
    schedule := .host :: s.schedule }

end Sys2Proof.Machine
end

