-- ==== Sys2Proof/Safety.lean ====
section
/-! DEFINITION. What counts as a safe run and as the end of one (spec/70_reset_and_hazards.md R360), runs and weak
fairness (spec/60_exceptions.md R321), the invariants claims are stated with, the byte sequence a ring holds
(spec/43_ring_buffer.md R238), and the observation at the end of a run (R361). -/

namespace Sys2Proof.Machine

/-! ### The end of a run -/

/-- The final states (R360): no fault, RUN, the program issued and complete, nothing loaded and unsent, and with a
channel an empty TX ring. -/
def finalState (s : State) : Bool :=
  s.fault.isNone && decide (s.pstate = .run)
    && (decide (s.hpc = s.launch.program.length) && !s.busy && decide (s.seqState = .idle))
    && s.txe && (!s.chen || decide (s.ringW .tx = s.ringR .tx))

/-- A safe state: no fault is recorded (R310, R313). -/
def State.safe (s : State) : Bool := s.fault.isNone

/-! ### Runs, fairness, hangs -/

/-- The moves of a list, one after the other, through final states too; a model stop ends it. The run of R360, which
ends at the first final state, is `runToEnd`. -/
def runMoves : List Move → State → Result
  | [], s => .next s
  | m :: ms, s =>
    match moveStep m s with
    | .next t => runMoves ms t
    | .fault r => .fault r
    | .refused r => .refused r

/-- How a run along a list of moves stands when the list is done with. -/
inductive RunEnd where
  /-- The run has ended: the first reached final state (R360). -/
  | ended (s : State)
  /-- The moves are over and no state reached was final. -/
  | unfinished (s : State)
  /-- A step of the model stopped for good. -/
  | stopped (r : Fault)
  /-- An instruction was refused. -/
  | refused (r : Refusal)
  deriving DecidableEq, Repr

/-- The run along a list of moves: it ends at the first final state it reaches, the one it starts in among them, and
takes no move after that (R360). -/
def runToEnd : List Move → State → RunEnd
  | [], s => if finalState s then .ended s else .unfinished s
  | m :: ms, s =>
    if finalState s then .ended s
    else match moveStep m s with
      | .next t => runToEnd ms t
      | .fault r => .stopped r
      | .refused r => .refused r

/-- Step `n` of a run: the state is not final, since a run goes no further than the first final state (R360), and an
enabled move is taken from it (R13, R321). -/
def RunStep (moves : Nat → Move) (states : Nat → State) (n : Nat) : Prop :=
  finalState (states n) = false ∧ enabled (moves n) (states n) = true ∧
    moveStep (moves n) (states n) = .next (states (n + 1))

/-- The run ends at state `n`: the first reached final state (R360). -/
def EndsAt (moves : Nat → Move) (states : Nat → State) (n : Nat) : Prop :=
  (∀ k, k < n → RunStep moves states k) ∧ finalState (states n) = true

/-- An infinite run: it never reaches a final state (R360). -/
def IsRun (moves : Nat → Move) (states : Nat → State) : Prop := ∀ n, RunStep moves states n

/-- The agents the scheduler is weakly fair to: all but WAKE, which is an environment event, and an outside host's
port writes (R321, R205). -/
def isFair : Move → Bool
  | .wake => false
  | .portCmd _ => false
  | .portArg _ => false
  | _ => true

/-- No fair agent stays enabled forever without stepping (R321). -/
def WeaklyFair (moves : Nat → Move) (states : Nat → State) : Prop :=
  ∀ a : Move, isFair a = true → ∀ n, ∃ k, n ≤ k ∧ (moves k = a ∨ enabled a (states k) = false)

/-- A hang: a weakly fair infinite run (R13, R360). -/
def IsHang (moves : Nat → Move) (states : Nat → State) : Prop := IsRun moves states ∧ WeaklyFair moves states

/-- The moves of one bring-up after BRINGUP's ms1, by the step order of R192, each wait passed once its device has
stepped. -/
def bringupMoves (v : Variant) : List Move :=
  [.cseq, .cseq, .osc, .cseq, .cseq, .cseq, .pll, .cseq]
    ++ (if v.prescInter.isSome && !v.finalAfterSwitch then [.cseq, .cseq] else [.cseq])
    ++ [.cseq, .clksw, .cseq]
    ++ (if v.finalAfterSwitch then [.cseq] else [])
    ++ [.cseq, .cseq, .host]

/-! ### Invariants -/

/-- Both indices of ring `k` are in 0..N_k - 1 (R61). -/
def ringInRange (s : State) (k : RingId) : Bool :=
  decide ((s.ringW k).toNat < ringCap s.launch k) && decide ((s.ringR k).toNat < ringCap s.launch k)

/-- Both rings' indices are in range, under ring parameters as R8 and R102 ask. -/
def ringsInRange (s : State) : Bool :=
  s.launch.wellFormed && ringInRange s .rx && ringInRange s .tx

/-- No field of CLK_CFGR holds a reserved code, SWS included (R41, R53). -/
def clockCodesLegal (s : State) : Bool := !Slot.reservedCode .clkCfgr s.clkCfgr && decide (s.sws ≠ 3)

/-- The bus and flash limits hold (R312). -/
def frequenciesOk (s : State) : Bool := !s.overclocked && !s.flashTooSlow

/-- While BUSY = 1 the latched word is a command and the micro-step index is one it has; while BUSY = 0 there is no
current command (R56). -/
def commandValid (s : State) : Bool :=
  if s.busy then
    match decode s.current.word with
    | .ok i => decide (s.current.ms.number ≤ (lastMicroStep i).number)
    | .error _ => false
  else decide (s.current = Current.none)

/-- The sequencer is away from IDLE only while a BRINGUP or PDOWN waits at ms2, and the block is asleep only at
P4_WFE (R182, R200, R204). -/
def sequencerValid (s : State) : Bool :=
  (decide (s.seqState = .idle) ||
    (s.busy && decide (s.current.ms = .ms2)
      && (match decode s.current.word with
          | .ok .bringup => true
          | .ok (.pdown _) => true
          | _ => false)))
    && (decide (s.pstate = .run) || decide (s.seqState = .p4Wfe))

/-- The words of the register slots hold nothing in their reserved bits, and CLK_CR's hardwired bits are 1 (R35,
R39). -/
def reservedBitsClear (s : State) : Bool :=
  [Slot.scratch, .flashAcr, .clkCr, .clkPllcfg, .clkCfgr, .penr, .pwrCr, .scr, .tickCtrl, .tickReload, .tickCount,
    .uartStat, .uartData, .uartCtrl, .uartBaud].all fun r =>
      decide (s.stored r &&& r.reservedMask = 0) && decide (s.stored r &&& r.hardwired = r.hardwired)

/-- A running PLL, and one about to be turned on, has the variant's configuration (R185, R195): CSEQ writes it before
PLLON, and not while PLLON = 1. -/
def pllConfigHeld (s : State) : Bool :=
  !(s.pllOn || decide (s.seqState = .s3PllOn))
    || decide (s.clkPllcfg &&& Slot.rwMask .clkPllcfg = pllCfgValue s.launch.variant)

/-- Once CHINIT has cleared W_TX it reads 0, and once it has cleared R_TX both do, until the channel exists
(R257). -/
def chinitEmptiesTx (s : State) : Bool :=
  s.chen || !s.busy || (match decode s.current.word with
    | .ok .chinit =>
      match s.current.ms with
      | .ms7 => decide (s.ringW .tx = 0)
      | .ms8 => decide (s.ringW .tx = 0) && decide (s.ringR .tx = 0)
      | .ms9 => decide (s.ringW .tx = 0) && decide (s.ringR .tx = 0)
      | _ => true
    | _ => true)

/-- HOST's current command is a PUTC between its ms3 and its ms5 (R262): ms3 is done, ms5 is not. -/
def insidePutcEnable (s : State) : Bool :=
  s.busy && (match decode s.current.word with
    | .ok (.putc _) => decide (s.current.ms = .ms4) || decide (s.current.ms = .ms5)
    | _ => false)

/-- With a channel, a non-empty TX ring has its interrupt enabled, but inside PUTC's enable (R262). -/
def enableFollowsQueue (s : State) : Bool :=
  !s.chen || insidePutcEnable s || decide (s.ringW .tx = s.ringR .tx) || s.txie

/-- While CHEN = 1 no command is under way that the channel excludes: UINIT, CHINIT, PPUTC, PGETC, TRYPUT RX or
TRYGET TX past its ms1, where it is checked (R231, R250, R352). -/
def driverExcluded (s : State) : Bool :=
  !s.chen || !s.busy || decide (s.current.ms = .ms1) ||
    (match decode s.current.word with
      | .ok .uinit => false
      | .ok .chinit => false
      | .ok (.pputc _) => false
      | .ok .pgetc => false
      | .ok (.tryput .rx _) => false
      | .ok (.tryget .tx) => false
      | _ => true)

/-- A put of byte `b` into ring `k` under way (R107, R233): after its ms1 the snapshot of R is in range and counts no
fewer bytes than the ring holds, so ms2 overwrites no unread byte; after its ms2 the ring has a free slot and the slot
at W holds `b`. -/
def putSnapshotSound (s : State) (k : RingId) (b : Byte) : Bool :=
  match s.current.ms with
  | .ms2 => decide (s.current.rr.toNat < ringCap s.launch k)
      && decide (ringCount s.launch k (s.ringW k) (s.ringR k) ≤ ringCount s.launch k (s.ringW k) s.current.rr)
  | .ms3 => !ringFull s.launch k (s.ringW k) (s.ringR k)
      && decide (memGet s.mem (ringSlotAddr s.launch k (s.ringW k).toNat) = b)
  | _ => true

/-- A get from ring `k` under way (R107, R234): after its ms1 the snapshot of W is in range and counts no more bytes
than the ring holds, so ms2 reads no unwritten byte; after its ms2 the ring is not empty and the byte taken is still
the oldest. -/
def getSnapshotSound (s : State) (k : RingId) : Bool :=
  match s.current.ms with
  | .ms2 => decide (s.current.ww.toNat < ringCap s.launch k)
      && decide (ringCount s.launch k s.current.ww (s.ringR k) ≤ ringCount s.launch k (s.ringW k) (s.ringR k))
  | .ms3 => decide (s.ringW k ≠ s.ringR k)
      && decide (s.current.b = memGet s.mem (ringSlotAddr s.launch k (s.ringR k).toNat))
  | _ => true

/-- The snapshot of the put or get under way, if there is one, is sound (R107, R233, R234, R238, R260, R261). -/
def snapshotsSound (s : State) : Bool :=
  !s.busy || (match decode s.current.word with
    | .ok (.tryput k b) => putSnapshotSound s k b
    | .ok (.putc b) => putSnapshotSound s .tx b
    | .ok (.tryget k) => getSnapshotSound s k
    | .ok .getc => getSnapshotSound s .rx
    | _ => true)

/-! ### What a command stores -/

/-- The bytes of ring RAM that the current micro-step of command `i` stores to: the first address and how many;
none for a micro-step that stores nothing (R102, R233, R234, R257, R260, R261). -/
def storedBytes (i : Instr) (s : State) : Option (Nat × Nat) :=
  match i, s.current.ms with
  | .tryput k _, .ms2 =>
    if ringFull s.launch k (s.ringW k) s.current.rr then none
    else some (ringSlotAddr s.launch k (s.ringW k).toNat, 1)
  | .tryput k _, .ms3 => some (ringBase s.launch k, 4)
  | .tryget k, .ms3 => some (ringBase s.launch k + 4, 4)
  | .putc _, .ms2 =>
    if ringFull s.launch .tx (s.ringW .tx) s.current.rr then none
    else some (ringSlotAddr s.launch .tx (s.ringW .tx).toNat, 1)
  | .putc _, .ms3 => some (ringBase s.launch .tx, 4)
  | .getc, .ms3 => some (ringBase s.launch .rx + 4, 4)
  | .chinit, .ms4 => some (ringBase s.launch .rx, 4)
  | .chinit, .ms5 => some (ringBase s.launch .rx + 4, 4)
  | .chinit, .ms6 => some (ringBase s.launch .tx, 4)
  | .chinit, .ms7 => some (ringBase s.launch .tx + 4, 4)
  | _, _ => none

/-- The bytes of ring RAM that an IRQE step stores to: of RX the data slot at W and the index W, when the receive rule
puts a byte; of TX the index R, when the transmit rule takes one (R277, R278). The tick handler stores none (R296). -/
def handlerStoredBytes (s : State) : List (Nat × Nat) :=
  if s.tickIrq then []
  else (if s.rxne && s.rxie && !ringFull s.launch .rx (s.ringW .rx) (s.ringR .rx) then
      [(ringSlotAddr s.launch .rx (s.ringW .rx).toNat, 1), (ringBase s.launch .rx, 4)] else [])
    ++ (if s.txe && s.txie && decide (s.ringW .tx ≠ s.ringR .tx) then [(ringBase s.launch .tx + 4, 4)] else [])

/-! ### The bytes a ring holds -/

/-- The bytes of ring `k`, oldest first: count of them, from index R_k on, modulo N_k (R230, R238). -/
def ringContents (s : State) (k : RingId) : List Byte :=
  (List.range (ringCount s.launch k (s.ringW k) (s.ringR k))).map fun j =>
    memGet s.mem (ringSlotAddr s.launch k (((s.ringR k).toNat + j) % ringCap s.launch k))

/-! ### The observation -/

/-- One ring as it is observed: its indices, the bytes queued, oldest first, and every slot of BUF_k (R361). -/
structure RingView where
  w : Word
  r : Word
  queued : List Byte
  slots : List Byte
  deriving DecidableEq, Repr

/-- The view of ring `k`. -/
def ringView (s : State) (k : RingId) : RingView where
  w := s.ringW k
  r := s.ringR k
  queued := ringContents s k
  slots := (List.range (ringCap s.launch k)).map fun i => memGet s.mem (ringSlotAddr s.launch k i)

/-- What is read at the end of a run: the whole block state and the environment lists (R361). STATUS shows BUSY, the
fault, SEQ_STATE and PSTATE, and the UART_DATA register shows RXDATA. -/
structure Observation where
  registers : List Word
  status : Word
  arg : Word
  res : Word
  hpc : Nat
  current : Current
  tickPend : Bool
  txData : Byte
  rx : RingView
  tx : RingView
  chen : Bool
  imask : Bool
  ticks : Word
  lineOut : List Byte
  lineIn : List Byte
  deriving DecidableEq, Repr

/-- The observation of a state: its registers by slot number, without their read side effects, and the rest of the
state that the spec gives the block (R361). -/
def observation (s : State) : Observation where
  registers := [Slot.scratch, .flashAcr, .clkCr, .clkPllcfg, .clkCfgr, .penr, .pwrCr, .scr, .tickCtrl, .tickReload,
    .tickCount, .uartStat, .uartData, .uartCtrl, .uartBaud].map s.regValue
  status := s.statusWord
  arg := s.arg
  res := s.res
  hpc := s.hpc
  current := s.current
  tickPend := s.tickPend
  txData := s.txData
  rx := ringView s .rx
  tx := ringView s .tx
  chen := s.chen
  imask := s.imask
  ticks := s.tickCount
  lineOut := s.lineOut
  lineIn := s.lineIn

/-- The observation at the end of the run along a list of moves: read from its final state, where it has one
(R360, R361). -/
def observeRun (moves : List Move) (s : State) : Option Observation :=
  match runToEnd moves s with
  | .ended t => some (observation t)
  | .unfinished _ => none
  | .stopped _ => none
  | .refused _ => none

end Sys2Proof.Machine
end

