-- ==== Sys2Proof/Certificates/Slice0/Obligations.lean ====
section
/-! DEFINITION. The statements for the provers, from the numbered rules of spec/. Each docstring names its rules.
A statement of a command's micro-step gives the whole next state, so its frame (every register, flag, list and byte
of memory it leaves) is in the equation; memory is also said byte by byte in CommandsStoreOnlyTheirBytes. -/

open Sys2Proof Sys2Proof.Machine

/-! ### Encoding -/

/-- R138, R141: encoding and decoding agree for every well-formed command, at every operand value. -/
def Obligations.EncodeThenDecodeGivesTheCommand : Prop :=
  ∀ i : Instr, i.wellFormed = true → decode (encode i) = .ok i

/-- R138: a word that decodes is selected by exactly the row of its mnemonic; any other word by none. -/
def Obligations.DecodeFollowsTheOpcodeMap : Prop :=
  ∀ w : Word,
    match decode w with
    | .ok i => (opcodeMap.filter fun r => r.selects w).map (fun r => r.mnemonic) = [i.mnemonic]
    | .error _ => opcodeMap.filter (fun r => r.selects w) = []

/-- R139, R141: the fields come from the positions of the format, and no bit is dropped. -/
def Obligations.DecodedWordEncodesBack : Prop :=
  ∀ (w : Word) (i : Instr), decode w = .ok i → i.wellFormed = true ∧ encode i = w

/-- R132 to R137, R139, with the words of spec/95_test_vectors.md section 3: one or two of each format, and two
illegal words. -/
def Obligations.SampleCommandWordsDecode : Prop :=
  decode 0x01040000#32 = .ok (.rd 4) ∧ decode 0x03001F00#32 = .ok (.rdbit 0 31) ∧ decode 0x04050201#32 = .ok (.wrbit 5 2 true) ∧
  decode 0x10010041#32 = .ok (.tryput .tx 0x41#8) ∧ decode 0x24000048#32 = .ok (.putc 0x48#8) ∧
  decode 0x31000001#32 = .ok (.pdown .standby) ∧ decode 0x42000000#32 = .ok .rdtick ∧
  decode 0x00000000#32 = .error .unlistedOpcode ∧ decode 0x03001F01#32 = .error .nonzeroFixedBit

/-! ### Steps, issue, faults, reset -/

/-- R56, R196, R321: HOST has a micro-step only while SEQ_STATE = IDLE, CSEQ one exactly while it is not; a step that
takes an enabled move, from the schedule or as the free choice, is that move's step followed by the frequency checks:
HOST's is the current micro-step of the latched command, or the issue step, and CSEQ's its step rule; a move that is not
enabled changes nothing else (log entry 1). -/
def Obligations.StepRunsTheLatchedCommand : Prop :=
  ∀ (s u : State) (m : Move), s.fault = none →
    ((∃ rest, s.schedule = m :: rest ∧ u = { s with schedule := rest }) ∨
      (s.schedule = [] ∧ m = Config.freeMove s.freeCount ∧ u = { s with freeCount := s.freeCount + 1 })) →
    (enabled .host s = true ↔ s.pstate = .run ∧ (s.busy = true → s.seqState = .idle) ∧
      (s.busy = false → s.hpc < s.launch.program.length)) ∧
    (enabled .cseq s = true ↔ s.pstate = .run ∧ s.seqState ≠ .idle) ∧
    (enabled m s = false → step s = .next u) ∧
    (enabled m s = true → step s = checked (perform m u)) ∧
    (m = .host → s.pstate = .run → s.busy = false → s.hpc < s.launch.program.length →
      step s = checked (commit u (issue u))) ∧
    (∀ i : Instr, m = .host → s.pstate = .run → s.seqState = .idle → s.busy = true →
      decode s.current.word = .ok i → step s = checked (exec i u)) ∧
    (m = .cseq → s.pstate = .run → s.seqState ≠ .idle → step s = checked (commit u (cseqStep u)))

/-- R30, R34, R139, R311: the issue step writes ARG, latches a legal word with it and advances hpc, all in one step;
an illegal word raises IllegalCommand and changes nothing else. An outside host's CMD write does the same with the ARG
of that moment and leaves hpc, or raises CommandWhileBusy while BUSY = 1, whatever its word; its ARG write changes ARG
alone, not the copy of a command in progress; both ports take a write exactly in a running block (log entries 2, 10
and 19). -/
def Obligations.IssueLatchesOneCommand : Prop :=
  ∀ (s : State) (c a : Word),
    (s.busy = false → s.launch.program[s.hpc]? = some (c, a) →
      perform .host s =
        match decode c with
        | .ok _ => .next { s with arg := a, busy := true, current := Current.start c a, hpc := s.hpc + 1 }
        | .error _ => .next (s.raise .illegalCommand)) ∧
    (s.busy = false → perform (.portCmd c) s =
      match decode c with
      | .ok _ => .next { s with busy := true, current := Current.start c s.arg }
      | .error _ => .next (s.raise .illegalCommand)) ∧
    (s.busy = true → perform (.portCmd c) s = .next (s.raise .commandWhileBusy)) ∧
    perform (.portArg a) s = .next { s with arg := a } ∧
    (s.fault = none → (enabled (.portCmd c) s = true ↔ s.pstate = .run) ∧
      (enabled (.portArg a) s = true ↔ s.pstate = .run))

/-- R313: raising records the first fault in STATUS and changes nothing else; a faulted block is halted, with no agent
and no WAKE enabled, and never final. -/
def Obligations.FaultHaltsTheBlock : Prop :=
  ∀ (s : State) (c d : FaultCode),
    (s.fault = none → s.raise c = { s with fault := some c } ∧
      (s.raise c).statusWord.getLsbD 1 = true ∧ fieldOf (s.raise c).statusWord 8 8 = BitVec.ofNat 8 c.number) ∧
    (s.fault = some d → s.raise c = s ∧ step s = .fault (.halted d) ∧ finalState s = false ∧
      ∀ m : Move, enabled m s = false)

/-- R311: a step of any agent that records a fault leaves the state as before it, apart from the record (classes 1 to
4; the frequency checks come after the step). -/
def Obligations.AccessFaultsChangeNothingElse : Prop :=
  ∀ (m : Move) (s t : State) (c : FaultCode), s.fault = none → perform m s = .next t → t.fault = some c →
    t = { s with fault := some c }

/-- R340: a reset gives every register, flag and index the value of the table, for every launch and every draw. -/
def Obligations.ResetGivesTheTableValues : Prop :=
  ∀ (l : Launch) (d : Draws) (i o : List Byte) (ms : List Move) (n : Nat),
    let s := State.afterReset l d i o ms n
    s.arg = 0 ∧ s.statusWord = 0 ∧ s.hpc = 0 ∧ s.current = Current.none ∧
    s.regValue .flashAcr = 0 ∧ s.regValue .clkCr = 3 ∧ s.regValue .clkPllcfg = 0 ∧ s.regValue .clkCfgr = 0 ∧
    s.regValue .penr = 0 ∧ s.regValue .pwrCr = 0 ∧ s.regValue .scr = 0 ∧ s.regValue .tickCtrl = 0 ∧
    s.regValue .tickReload = 0 ∧ s.regValue .tickCount = 0 ∧ s.tickPend = false ∧ s.regValue .uartStat = 2 ∧
    s.regValue .uartCtrl = 0 ∧ s.regValue .uartBaud = 0 ∧
    (∀ k, s.ringW k = 0 ∧ s.ringR k = 0) ∧ s.chen = false ∧ s.imask = false ∧ s.lineIn = i ∧ s.lineOut = o ∧
    s.res = d.res ∧ s.regValue .scratch = d.scratch ∧ s.rxData = d.rxData ∧ s.txData = d.txData ∧
    s.clockState = .reset ∧ s.sysclk = l.variant.fIrc ∧ s.hclk = l.variant.fIrc ∧ s.pclk1 = l.variant.fIrc ∧
    s.pclk2 = l.variant.fIrc

/-- Every invariant stated below holds at State.reset, which is the launch state of log entry 3's launch with log entry
5's zero draws: the model's choices. -/
def Obligations.InvariantsHoldAtReset : Prop :=
  State.reset = State.atLaunch Launch.ex Draws.zero [] [] ∧ Memory.wf State.reset.mem = true ∧
  ringsInRange State.reset = true ∧ clockCodesLegal State.reset = true ∧ commandValid State.reset = true ∧
  sequencerValid State.reset = true ∧ frequenciesOk State.reset = true ∧ driverExcluded State.reset = true ∧
  enableFollowsQueue State.reset = true ∧ chinitEmptiesTx State.reset = true ∧
  reservedBitsClear State.reset = true ∧ pllConfigHeld State.reset = true ∧ snapshotsSound State.reset = true

/-! ### Register access commands -/

/-- R160, R162: RD and RDBIT of a slot HOST may read complete with its value, after its read side effects. -/
def Obligations.RdAndRdbitGiveTheValue : Prop :=
  ∀ (s : State) (slot bit : Nat) (r : Slot), s.current.ms = .ms1 → Slot.ofNumber slot = some r →
    (r = .uartData → s.chen = false) → (r.isUart = true → s.uartEn = true) →
    exec (.rd slot) s = .next ((s.afterRead r).doneWith (s.regValue r)) ∧
    exec (.rdbit slot bit) s = .next ((s.afterRead r).doneWith (if (s.regValue r).getLsbD bit then 1 else 0))

/-- R165: every HOST read faults in the order UnmappedSlot, OwnershipViolation, PeripheralClockOff, and a fault
changes nothing else. -/
def Obligations.ReadsFaultInOrder : Prop :=
  ∀ (s : State) (slot bit : Nat) (v : Bool) (i : Instr) (c : FaultCode), s.current.ms = .ms1 →
    (i = .rd slot ∨ i = .rdbit slot bit ∨ i = .wrbit slot bit v ∨ i = .poll slot bit v) →
    (match Slot.ofNumber slot with
      | none => some FaultCode.unmappedSlot
      | some r =>
        if r = .uartData ∧ s.chen = true then some .ownershipViolation
        else if r.isUart = true ∧ s.uartEn = false then some .peripheralClockOff else none) = some c →
    exec i s = .next (s.raise c)

/-- R161: WR of a slot HOST may write, with a value the slot takes, completes with the write done. -/
def Obligations.WrStoresTheArgument : Prop :=
  ∀ (s : State) (slot : Nat) (r : Slot), s.current.ms = .ms1 → Slot.ofNumber slot = some r →
    r.notHosts = false → (r.isUart = true → s.chen = false ∧ s.uartEn = true) →
    (r.isPeripheral = true → s.clockState = .switched) → s.current.arg &&& r.reservedMask = 0 →
    (r = .uartData → s.txe = true) →
    exec (.wr slot) s = .next (s.regWrite r s.current.arg).done

/-- R166, R167: every WR that faults raises the first fault of the order, and changes nothing else. -/
def Obligations.WrFaultsInOrder : Prop :=
  ∀ (s : State) (slot : Nat) (c : FaultCode), s.current.ms = .ms1 →
    (match Slot.ofNumber slot with
      | none => some FaultCode.unmappedSlot
      | some r =>
        if r.notHosts = true ∨ (s.chen = true ∧ r.isUart = true) then some .ownershipViolation
        else if r.isPeripheral = true ∧ s.clockState ≠ .switched then some .peripheralBeforeSwitched
        else if r.isUart = true ∧ s.uartEn = false then some .peripheralClockOff
        else if s.current.arg &&& r.reservedMask ≠ 0 then some .reservedBitWrite
        else if r = .uartData ∧ s.txe = false then some .txWhileBusy else none) = some c →
    exec (.wr slot) s = .next (s.raise c)

/-- R35, R37 to R52, R104: a register write is read back in the RW bits, leaves the RO bits (but CLK_CR's ready bits on
their edges) and every other slot (but TXE, which a UART_DATA write clears as it loads TXDATA), and touches nothing but
register words. -/
def Obligations.RegisterWritesTakeTheRwBits : Prop :=
  ∀ (s : State) (r q : Slot) (v : Word),
    (r ≠ .uartData → (s.regWrite r v).regValue r &&& r.rwMask = v &&& r.rwMask) ∧
    (r ≠ .uartData → r ≠ .clkCr → (s.regWrite r v).regValue r &&& r.roMask = s.regValue r &&& r.roMask) ∧
    (q ≠ r → ¬(r = .uartData ∧ q = .uartStat) → (s.regWrite r v).regValue q = s.regValue q) ∧
    s.regWrite .uartData v = { s with txData := v.extractLsb' 0 8, uartStat := s.uartStat &&& ~~~2#32 } ∧
    (r ≠ .uartData →
      let t := s.regWrite r v
      t = { s with
        scratch := t.scratch, flashAcr := t.flashAcr, clkCr := t.clkCr, clkPllcfg := t.clkPllcfg,
        clkCfgr := t.clkCfgr, penr := t.penr, pwrCr := t.pwrCr, scr := t.scr, tickCtrl := t.tickCtrl,
        tickReload := t.tickReload, uartCtrl := t.uartCtrl, uartBaud := t.uartBaud })

/-- R33, R35, R39, R50, R54, R55, R65, R67, R310: what every state shows. Reserved bits read 0 and IRCON and IRCRDY
read 1; only a UART_DATA read has an effect, which is to clear RXNE and ORE; STATUS has its fields, with the codes of
the tables; clockState and the frequencies are computed from CLK_CR, CLK_PLLCFG and CLK_CFGR (code 3 has no frequency,
log entry 16). -/
def Obligations.ReadsShowNoReservedBits : Prop :=
  ∀ (s : State) (r : Slot),
    s.regValue r &&& r.reservedMask = 0 ∧ s.regValue .clkCr &&& 3 = 3 ∧
    (r ≠ .uartData → s.afterRead r = s) ∧
    s.afterRead .uartData = { s with uartStat := s.uartStat &&& ~~~5#32 } ∧
    s.regValue .uartData = s.rxData.setWidth 32 ∧
    (s.statusWord.getLsbD 0 = s.busy ∧ s.statusWord.getLsbD 1 = s.fault.isSome ∧
      fieldOf s.statusWord 8 8 = (match s.fault with
        | none => 0x00
        | some .illegalCommand => 0x01
        | some .commandWhileBusy => 0x02
        | some .unmappedSlot => 0x03
        | some .ownershipViolation => 0x04
        | some .peripheralBeforeSwitched => 0x05
        | some .peripheralClockOff => 0x06
        | some .reservedBitWrite => 0x07
        | some .reservedFieldValue => 0x08
        | some .pllConfigIllegal => 0x09
        | some .pllReconfigWhileOn => 0x0A
        | some .busOverclock => 0x0B
        | some .flashWaitStates => 0x0C
        | some .txWhileBusy => 0x0D
        | some .channelOff => 0x0E) ∧
      fieldOf s.statusWord 16 5 = (match s.seqState with
        | .idle => 0x00
        | .s1Flash => 0x01
        | .s2XoscOn => 0x02
        | .s2XoscWait => 0x03
        | .s3PllCfg => 0x04
        | .s3PllOn => 0x05
        | .s3PllWait => 0x06
        | .s4PrescInter => 0x07
        | .s4PrescFinal => 0x08
        | .s5Switch => 0x09
        | .s5SwitchWait => 0x0A
        | .s4PrescLate => 0x0B
        | .s6TickArm => 0x0C
        | .s6TickEn => 0x0D
        | .p1PwrEn => 0x10
        | .p2Mode => 0x11
        | .p3Deep => 0x12
        | .p4Wfe => 0x13) ∧
      fieldOf s.statusWord 24 2 = (match s.pstate with
        | .run => 0
        | .stop => 1
        | .standby => 2) ∧
      s.statusWord &&& 0xFCE000FC = 0) ∧
    s.clockState = (if fieldOf s.clkCfgr 2 2 = 2 then .switched
      else if s.clkCr.getLsbD 16 = true then .pllLocking
      else if s.clkCr.getLsbD 8 = true then .oscillatorStabilizing else .reset) ∧
    (let v := s.launch.variant
      let m := (fieldOf s.clkPllcfg 0 6).toNat
      let n := (fieldOf s.clkPllcfg 6 9).toNat
      let p := (fieldOf s.clkPllcfg 16 4).toNat
      (fieldOf s.clkCfgr 2 2 = 0 → s.sysclk = v.fIrc) ∧ (fieldOf s.clkCfgr 2 2 = 1 → s.sysclk = v.fXosc) ∧
      (fieldOf s.clkCfgr 2 2 = 2 → s.sysclk = if m * p = 0 then 0
        else (if s.clkPllcfg.getLsbD 24 = true then v.fXosc else v.fIrc) * n / (m * p)) ∧
      s.hclk = s.sysclk / 2 ^ (fieldOf s.clkCfgr 4 4).toNat ∧
      s.pclk1 = s.hclk / 2 ^ (fieldOf s.clkCfgr 8 3).toNat ∧
      s.pclk2 = s.hclk / 2 ^ (fieldOf s.clkCfgr 11 3).toNat)

/-- R39: a CLK_CR write sets XOSCON and PLLON; XOSCON 1→0 clears XOSCRDY, PLLON 1→0 clears PLLRDY, and nothing else
changes the ready bits; PLLON 0→1 with a zero divider or multiplier raises PllConfigIllegal. -/
def Obligations.ClkCrWriteEdges : Prop :=
  ∀ (s : State) (v : Word),
    let t := s.regWrite .clkCr v
    t.xoscOn = v.getLsbD 8 ∧ t.pllOn = v.getLsbD 16 ∧
    t.xoscRdy = (s.xoscRdy && !(s.xoscOn && !v.getLsbD 8)) ∧
    t.pllRdy = (s.pllRdy && !(s.pllOn && !v.getLsbD 16)) ∧
    (v &&& Slot.reservedMask .clkCr = 0 → v.getLsbD 16 = true → s.pllOn = false →
      s.pllM = 0 ∨ s.pllN = 0 ∨ s.pllP = 0 → devWrite s .clkCr v = .error (.raise .pllConfigIllegal))

/-- R163, R166, R167: WRBIT's ms1 reads into t, its ms2 writes the changed t, or raises the first fault that a write
of it raises; on a slot of CSEQ or IRQE ms1 reads and ms2 raises OwnershipViolation. -/
def Obligations.WrbitReadsThenWrites : Prop :=
  ∀ (s : State) (slot bit : Nat) (v : Bool) (r : Slot), Slot.ofNumber slot = some r →
    let u : Word := if v then s.current.t ||| (1#32 <<< bit) else s.current.t &&& ~~~(1#32 <<< bit)
    (s.current.ms = .ms1 → (r = .uartData → s.chen = false) → (r.isUart = true → s.uartEn = true) →
      exec (.wrbit slot bit v) s =
        .next { s.afterRead r with current := { s.current with t := s.regValue r, ms := .ms2 } }) ∧
    (s.current.ms = .ms2 → r.notHosts = false → (r.isUart = true → s.chen = false ∧ s.uartEn = true) →
      (r.isPeripheral = true → s.clockState = .switched) → u &&& r.reservedMask = 0 →
      (r = .uartData → s.txe = true) → exec (.wrbit slot bit v) s = .next (s.regWrite r u).done) ∧
    (s.current.ms = .ms2 → ∀ c : FaultCode,
      (if r.notHosts = true ∨ (s.chen = true ∧ r.isUart = true) then some FaultCode.ownershipViolation
        else if r.isPeripheral = true ∧ s.clockState ≠ .switched then some .peripheralBeforeSwitched
        else if r.isUart = true ∧ s.uartEn = false then some .peripheralClockOff
        else if u &&& r.reservedMask ≠ 0 then some .reservedBitWrite
        else if r = .uartData ∧ s.txe = false then some .txWhileBusy else none) = some c →
      exec (.wrbit slot bit v) s = .next (s.raise c))

/-- R164: POLL completes when the bit has the value, and otherwise spins: ms1 again, with the read's side effects. -/
def Obligations.PollSpinsUntilTheBit : Prop :=
  ∀ (s : State) (slot bit : Nat) (v : Bool) (r : Slot), s.current.ms = .ms1 → Slot.ofNumber slot = some r →
    (r = .uartData → s.chen = false) → (r.isUart = true → s.uartEn = true) →
    ((s.regValue r).getLsbD bit = v → exec (.poll slot bit v) s = .next (s.afterRead r).done) ∧
    ((s.regValue r).getLsbD bit ≠ v → exec (.poll slot bit v) s = .next (s.afterRead r))

/-- R168: WRBIT's ms1 reads SCRATCH into t, its ms2 writes it with the bit changed, and an RDBIT then gives the bit; the
other bits keep their values, and no agent but HOST writes SCRATCH in between (a wake from standby resets it, and then
HOST starts anew). -/
def Obligations.ScratchBitRoundTrip : Prop :=
  ∀ (s : State) (i : Nat) (b : Bool), i < 32 →
    (s.current.ms = .ms1 → exec (.wrbit 0 i b) s =
      .next { s with current := { s.current with t := s.scratch, ms := .ms2 } }) ∧
    (s.current.ms = .ms2 → s.current.t = s.scratch →
      ∃ t, exec (.wrbit 0 i b) s = .next t ∧ t.busy = false ∧ t.scratch.getLsbD i = b ∧
        (∀ j, j ≠ i → t.scratch.getLsbD j = s.scratch.getLsbD j) ∧
        ∀ u : State, u.scratch = t.scratch → u.current.ms = .ms1 →
          exec (.rdbit 0 i) u = .next (u.doneWith (if b then 1 else 0))) ∧
    (∀ (m : Move) (u w : State), m ≠ .host → u.pstate ≠ .standby → perform m u = .next w →
      w.scratch = u.scratch)

/-- R59 (a), R231, R314: no micro-step of any command writes a register of CSEQ or IRQE, or what the devices and the
environment own; with a channel none of the latched command writes W_RX or R_TX, which are IRQE's. -/
def Obligations.HostNeverWritesOthersRegisters : Prop :=
  ∀ (i : Instr) (s t : State), exec i s = .next t →
    t.flashAcr = s.flashAcr ∧ t.clkCr = s.clkCr ∧ t.clkPllcfg = s.clkPllcfg ∧ t.clkCfgr = s.clkCfgr ∧
    t.pwrCr = s.pwrCr ∧ t.scr = s.scr ∧ t.tickCtrl = s.tickCtrl ∧ t.tickReload = s.tickReload ∧
    t.tickCount = s.tickCount ∧ t.tickPend = s.tickPend ∧ t.rxData = s.rxData ∧ t.pstate = s.pstate ∧
    t.lineIn = s.lineIn ∧ t.lineOut = s.lineOut ∧ t.hpc = s.hpc ∧ t.arg = s.arg ∧ t.launch = s.launch ∧
    (s.chen = true → s.busy = true → decode s.current.word = .ok i → driverExcluded s = true →
      ringsInRange s = true → t.ringW .rx = s.ringW .rx ∧ t.ringR .tx = s.ringR .tx)

/-! ### Ring buffer commands -/

/-- R231, R233: TRYPUT's micro-steps: the snapshot of R (or OwnershipViolation), then full and RES = 0 or the data
slot, then W and RES = 1. -/
def Obligations.TryputMicroSteps : Prop :=
  ∀ (s : State) (k : RingId) (b : Byte),
    (s.current.ms = .ms1 → ¬(s.chen = true ∧ k = .rx) → exec (.tryput k b) s =
      .next { s with current := { s.current with rr := s.ringR k, ms := .ms2 } }) ∧
    (s.current.ms = .ms1 → s.chen = true → exec (.tryput .rx b) s = .next (s.raise .ownershipViolation)) ∧
    (s.current.ms = .ms2 → ((s.ringW k).toNat + 1) % ringCap s.launch k = s.current.rr.toNat →
      exec (.tryput k b) s = .next (s.doneWith 0)) ∧
    (s.current.ms = .ms2 → ((s.ringW k).toNat + 1) % ringCap s.launch k ≠ s.current.rr.toNat →
      (s.ringW k).toNat < ringCap s.launch k → exec (.tryput k b) s =
        .next { s with
          mem := memSet s.mem (ringSlotAddr s.launch k (s.ringW k).toNat) b
          current := { s.current with ms := .ms3 } }) ∧
    (s.current.ms = .ms3 → exec (.tryput k b) s =
      .next { s.doneWith 1 with
        mem := memWrite4 s.mem (ringBase s.launch k)
          (BitVec.ofNat 32 (((s.ringW k).toNat + 1) % ringCap s.launch k)) })

/-- R231, R234: TRYGET's micro-steps: the snapshot of W (or OwnershipViolation), then empty and RES = 0 or the byte,
then R and RES = 0x100 | b. -/
def Obligations.TrygetMicroSteps : Prop :=
  ∀ (s : State) (k : RingId),
    (s.current.ms = .ms1 → ¬(s.chen = true ∧ k = .tx) → exec (.tryget k) s =
      .next { s with current := { s.current with ww := s.ringW k, ms := .ms2 } }) ∧
    (s.current.ms = .ms1 → s.chen = true → exec (.tryget .tx) s = .next (s.raise .ownershipViolation)) ∧
    (s.current.ms = .ms2 → s.current.ww = s.ringR k → exec (.tryget k) s = .next (s.doneWith 0)) ∧
    (s.current.ms = .ms2 → s.current.ww ≠ s.ringR k → (s.ringR k).toNat < ringCap s.launch k →
      exec (.tryget k) s = .next { s with current := { s.current with
        b := memGet s.mem (ringSlotAddr s.launch k (s.ringR k).toNat), ms := .ms3 } }) ∧
    (s.current.ms = .ms3 → exec (.tryget k) s =
      .next { s.doneWith (BitVec.ofNat 32 (256 + s.current.b.toNat)) with
        mem := memWrite4 s.mem (ringBase s.launch k + 4)
          (BitVec.ofNat 32 (((s.ringR k).toNat + 1) % ringCap s.launch k)) })

/-- R235 to R237: ISFULL, ISEMPTY and COUNT snapshot W, then read R and answer; they write nothing but RES. -/
def Obligations.RingQueriesAnswer : Prop :=
  ∀ (s : State) (k : RingId) (i : Instr),
    (s.current.ms = .ms1 → i = .isfull k ∨ i = .isempty k ∨ i = .count k → exec i s =
      .next { s with current := { s.current with cnt := s.ringW k, ms := .ms2 } }) ∧
    (s.current.ms = .ms2 →
      exec (.isfull k) s = .next (s.doneWith
        (if (s.current.cnt.toNat + 1) % ringCap s.launch k = (s.ringR k).toNat then 1 else 0)) ∧
      exec (.isempty k) s = .next (s.doneWith (if s.current.cnt = s.ringR k then 1 else 0)) ∧
      exec (.count k) s = .next (s.doneWith (BitVec.ofNat 32
        ((s.current.cnt.toNat + ringCap s.launch k - (s.ringR k).toNat) % ringCap s.launch k))))

/-- R61, R239: with both indices in range the count is at most N - 1, it is 0 exactly when W = R, and N - 1 exactly
when the ring is full. -/
def Obligations.RingCountIsBounded : Prop :=
  ∀ (s : State) (k : RingId), s.launch.wellFormed = true → ringInRange s k = true →
    let n := ringCap s.launch k
    let c := ringCount s.launch k (s.ringW k) (s.ringR k)
    c ≤ n - 1 ∧ (c = 0 ↔ s.ringW k = s.ringR k) ∧ (c = n - 1 ↔ ringFull s.launch k (s.ringW k) (s.ringR k) = true)

/-- R102, R233, R234, R257, R260, R261: a micro-step of any command leaves every byte of ring RAM but those it stores,
whose addresses are computed as the meaning computes them; most commands store none. -/
def Obligations.CommandsStoreOnlyTheirBytes : Prop :=
  ∀ (i : Instr) (s t : State) (a : Nat), exec i s = .next t →
    (∀ p, storedBytes i s = some p → a < p.1 ∨ p.1 + p.2 ≤ a) → memGet t.mem a = memGet s.mem a

/-- R61: every step keeps both indices of both rings in range, in memory of canonical form (MemoryStaysCanonical). -/
def Obligations.RingIndicesStayInRange : Prop :=
  ∀ s t : State, Memory.wf s.mem = true → ringsInRange s = true → step s = .next t → ringsInRange t = true

/-- R238: publishing appends the byte of slot W, releasing takes the oldest, writing the data slot first changes
nothing the ring holds, and neither touches the other ring. The same of the commands, which see a snapshot: while it is
sound (snapshotsSound, which every step keeps: ChannelExclusionIsKept), ms3 of TRYPUT and PUTC appends their byte, ms3
of TRYGET and GETC takes the oldest byte and gives it, and their other micro-steps change neither ring's bytes. -/
def Obligations.PutAndGetAreFifo : Prop :=
  ∀ (s : State) (k q : RingId) (b : Byte), Memory.wf s.mem = true → ringsInRange s = true →
    (ringFull s.launch k (s.ringW k) (s.ringR k) = false →
      ringContents { s with mem := memSet s.mem (ringSlotAddr s.launch k (s.ringW k).toNat) b } k =
        ringContents s k ∧
      putByte s k b = .ok (State.publish
        { s with mem := memSet s.mem (ringSlotAddr s.launch k (s.ringW k).toNat) b } k) ∧
      ∀ t, putByte s k b = .ok t → ringContents t k = ringContents s k ++ [b] ∧
        (q ≠ k → ringContents t q = ringContents s q)) ∧
    (ringFull s.launch k (s.ringW k) (s.ringR k) = true → putByte s k b = .ok s) ∧
    (s.ringW k ≠ s.ringR k → ∃ c t, getByte s k = .ok (c, t) ∧ t = s.release k ∧
      ringContents s k = c :: ringContents t k ∧ (q ≠ k → ringContents t q = ringContents s q)) ∧
    (∀ (i : Instr) (t : State), snapshotsSound s = true → s.busy = true → decode s.current.word = .ok i →
      exec i s = .next t →
      (i = .tryput k b ∨ (k = .tx ∧ i = .putc b) →
        ringContents t k = (if s.current.ms = .ms3 then ringContents s k ++ [b] else ringContents s k) ∧
        (q ≠ k → ringContents t q = ringContents s q)) ∧
      (i = .tryget k ∨ (k = .rx ∧ i = .getc) →
        (s.current.ms = .ms3 → ringContents s k = s.current.b :: ringContents t k ∧
          t.res = (if i = .getc then s.current.b.setWidth 32 else BitVec.ofNat 32 (256 + s.current.b.toNat))) ∧
        (s.current.ms ≠ .ms3 → ringContents t k = ringContents s k) ∧
        (q ≠ k → ringContents t q = ringContents s q)))

/-! ### Polled driver and buffered channel -/

/-- R251: UINIT's four micro-steps. -/
def Obligations.UinitMicroSteps : Prop :=
  ∀ s : State,
    (s.current.ms = .ms1 → s.chen = false → exec .uinit s =
      .next { s with current := { s.current with t := s.regValue .penr, ms := .ms2 } }) ∧
    (s.current.ms = .ms2 → s.clockState = .switched → s.current.t &&& Slot.reservedMask .penr = 0 →
      exec .uinit s = .next { s with
        penr := rwMerge 0x0000FFFF s.penr (s.current.t ||| 1), current := { s.current with ms := .ms3 } }) ∧
    (s.current.ms = .ms2 → s.clockState ≠ .switched → exec .uinit s = .next (s.raise .peripheralBeforeSwitched)) ∧
    (s.current.ms = .ms3 → s.clockState = .switched → s.uartEn = true → fieldOf s.current.arg 16 16 = 0 →
      exec .uinit s = .next { s with
        uartBaud := rwMerge 0x0000FFFF s.uartBaud s.current.arg, current := { s.current with ms := .ms4 } }) ∧
    (s.current.ms = .ms3 → s.clockState = .switched → s.uartEn = true → fieldOf s.current.arg 16 16 ≠ 0 →
      exec .uinit s = .next (s.raise .reservedBitWrite)) ∧
    (s.current.ms = .ms4 → s.clockState = .switched → s.uartEn = true → exec .uinit s =
      .next { s.done with uartCtrl := rwMerge 0x00000007 s.uartCtrl 1 })

/-- R257: CHINIT's nine micro-steps: the UART on, the four indices cleared, RXIE set, the handler registered; with
the faults of its PENR and UART_BAUD writes. -/
def Obligations.ChinitMicroSteps : Prop :=
  ∀ s : State,
    (s.current.ms = .ms1 → s.chen = false → exec .chinit s =
      .next { s with current := { s.current with t := s.regValue .penr, ms := .ms2 } }) ∧
    (s.current.ms = .ms2 → s.clockState = .switched → s.current.t &&& Slot.reservedMask .penr = 0 →
      exec .chinit s = .next { s with
        penr := rwMerge 0x0000FFFF s.penr (s.current.t ||| 1), current := { s.current with ms := .ms3 } }) ∧
    (s.current.ms = .ms3 → s.clockState = .switched → s.uartEn = true → fieldOf s.current.arg 16 16 = 0 →
      exec .chinit s = .next { s with
        uartBaud := rwMerge 0x0000FFFF s.uartBaud s.current.arg, current := { s.current with ms := .ms4 } }) ∧
    (s.current.ms = .ms2 → s.clockState ≠ .switched → exec .chinit s = .next (s.raise .peripheralBeforeSwitched)) ∧
    (s.current.ms = .ms3 → s.clockState = .switched → s.uartEn = true → fieldOf s.current.arg 16 16 ≠ 0 →
      exec .chinit s = .next (s.raise .reservedBitWrite)) ∧
    (s.current.ms = .ms4 → exec .chinit s = .next { s with
      mem := memWrite4 s.mem s.launch.ringBaseRx 0, current := { s.current with ms := .ms5 } }) ∧
    (s.current.ms = .ms5 → exec .chinit s = .next { s with
      mem := memWrite4 s.mem (s.launch.ringBaseRx + 4) 0, current := { s.current with ms := .ms6 } }) ∧
    (s.current.ms = .ms6 → exec .chinit s = .next { s with
      mem := memWrite4 s.mem s.launch.ringBaseTx 0, current := { s.current with ms := .ms7 } }) ∧
    (s.current.ms = .ms7 → exec .chinit s = .next { s with
      mem := memWrite4 s.mem (s.launch.ringBaseTx + 4) 0, current := { s.current with ms := .ms8 } }) ∧
    (s.current.ms = .ms8 → s.clockState = .switched → s.uartEn = true → exec .chinit s = .next { s with
      uartCtrl := rwMerge 0x00000007 s.uartCtrl 3, current := { s.current with ms := .ms9 } }) ∧
    (s.current.ms = .ms9 → exec .chinit s = .next { s.done with chen := true })

/-- R252: PPUTC spins while TXE = 0; its ms2 loads TXDATA and clears TXE. -/
def Obligations.PputcMicroSteps : Prop :=
  ∀ (s : State) (b : Byte),
    (s.current.ms = .ms1 → s.chen = false → s.uartEn = true → s.txe = true →
      exec (.pputc b) s = .next { s with current := { s.current with ms := .ms2 } }) ∧
    (s.current.ms = .ms1 → s.chen = false → s.uartEn = true → s.txe = false → exec (.pputc b) s = .next s) ∧
    (s.current.ms = .ms1 → s.chen = false → s.uartEn = false →
      exec (.pputc b) s = .next (s.raise .peripheralClockOff)) ∧
    (s.current.ms = .ms2 → s.clockState = .switched → s.uartEn = true → s.txe = true →
      exec (.pputc b) s = .next { s.done with txData := b, uartStat := s.uartStat &&& ~~~2#32 }) ∧
    (s.current.ms = .ms2 → s.clockState ≠ .switched →
      exec (.pputc b) s = .next (s.raise .peripheralBeforeSwitched)) ∧
    (s.current.ms = .ms2 → s.clockState = .switched → s.uartEn = false →
      exec (.pputc b) s = .next (s.raise .peripheralClockOff))

/-- R253: PGETC spins while RXNE = 0; its ms2 gives RXDATA and clears RXNE and ORE. -/
def Obligations.PgetcMicroSteps : Prop :=
  ∀ s : State,
    (s.current.ms = .ms1 → s.chen = false → s.uartEn = true → s.rxne = true →
      exec .pgetc s = .next { s with current := { s.current with ms := .ms2 } }) ∧
    (s.current.ms = .ms1 → s.chen = false → s.uartEn = true → s.rxne = false → exec .pgetc s = .next s) ∧
    (s.current.ms = .ms2 → s.uartEn = true → exec .pgetc s =
      .next { s.doneWith (s.rxData.setWidth 32) with uartStat := s.uartStat &&& ~~~5#32 }) ∧
    (s.current.ms = .ms1 → s.chen = false → s.uartEn = false →
      exec .pgetc s = .next (s.raise .peripheralClockOff)) ∧
    (s.current.ms = .ms2 → s.uartEn = false → exec .pgetc s = .next (s.raise .peripheralClockOff))

/-- R260: PUTC's five micro-steps, with the retry of ms1 on a full ring and the faults of ms4 and ms5. -/
def Obligations.PutcMicroSteps : Prop :=
  ∀ (s : State) (b : Byte),
    (s.current.ms = .ms1 → s.chen = true → exec (.putc b) s =
      .next { s with current := { s.current with rr := s.ringR .tx, ms := .ms2 } }) ∧
    (s.current.ms = .ms2 → ((s.ringW .tx).toNat + 1) % s.launch.ntx = s.current.rr.toNat →
      exec (.putc b) s = .next { s with current := { s.current with ms := .ms1 } }) ∧
    (s.current.ms = .ms2 → ((s.ringW .tx).toNat + 1) % s.launch.ntx ≠ s.current.rr.toNat →
      (s.ringW .tx).toNat < s.launch.ntx → exec (.putc b) s = .next { s with
        mem := memSet s.mem (s.launch.ringBaseTx + 8 + (s.ringW .tx).toNat) b
        current := { s.current with ms := .ms3 } }) ∧
    (s.current.ms = .ms3 → exec (.putc b) s = .next { s with
      mem := memWrite4 s.mem s.launch.ringBaseTx
        (BitVec.ofNat 32 (((s.ringW .tx).toNat + 1) % s.launch.ntx))
      current := { s.current with ms := .ms4 } }) ∧
    (s.current.ms = .ms4 → s.uartEn = true → exec (.putc b) s =
      .next { s with current := { s.current with t := s.regValue .uartCtrl, ms := .ms5 } }) ∧
    (s.current.ms = .ms5 → s.clockState = .switched → s.uartEn = true →
      s.current.t &&& Slot.reservedMask .uartCtrl = 0 → exec (.putc b) s =
        .next { s.done with uartCtrl := rwMerge 0x00000007 s.uartCtrl (s.current.t ||| 4) }) ∧
    (s.current.ms = .ms4 → s.uartEn = false → exec (.putc b) s = .next (s.raise .peripheralClockOff)) ∧
    (s.current.ms = .ms5 → s.clockState ≠ .switched →
      exec (.putc b) s = .next (s.raise .peripheralBeforeSwitched)) ∧
    (s.current.ms = .ms5 → s.clockState = .switched → s.uartEn = false →
      exec (.putc b) s = .next (s.raise .peripheralClockOff))

/-- R261: GETC's three micro-steps, with the retry of ms1 on an empty ring; it touches no UART register. -/
def Obligations.GetcMicroSteps : Prop :=
  ∀ s : State,
    (s.current.ms = .ms1 → s.chen = true → exec .getc s =
      .next { s with current := { s.current with ww := s.ringW .rx, ms := .ms2 } }) ∧
    (s.current.ms = .ms2 → s.current.ww = s.ringR .rx → exec .getc s =
      .next { s with current := { s.current with ms := .ms1 } }) ∧
    (s.current.ms = .ms2 → s.current.ww ≠ s.ringR .rx → (s.ringR .rx).toNat < s.launch.nrx →
      exec .getc s = .next { s with current := { s.current with
        b := memGet s.mem (s.launch.ringBaseRx + 8 + (s.ringR .rx).toNat), ms := .ms3 } }) ∧
    (s.current.ms = .ms3 → exec .getc s = .next { s.doneWith (s.current.b.setWidth 32) with
      mem := memWrite4 s.mem (s.launch.ringBaseRx + 4)
        (BitVec.ofNat 32 (((s.ringR .rx).toNat + 1) % s.launch.nrx)) })

/-- R59 (d), R250, R263: a polled driver command or a second CHINIT while CHEN = 1 raises OwnershipViolation, PUTC or
GETC while CHEN = 0 raises ChannelOff, at ms1, before any access. -/
def Obligations.DriverAndChannelExclude : Prop :=
  ∀ (s : State) (b : Byte), s.current.ms = .ms1 →
    (s.chen = true → ∀ i : Instr, i = .uinit ∨ i = .chinit ∨ i = .pputc b ∨ i = .pgetc →
      exec i s = .next (s.raise .ownershipViolation)) ∧
    (s.chen = false → ∀ i : Instr, i = .putc b ∨ i = .getc → exec i s = .next (s.raise .channelOff))

/-- R277: with RXNE and RXIE the receive rule reads UART_DATA, clearing RXNE and ORE, and puts the byte into RX, or
drops it if RX is full; otherwise it does nothing. The read needs the UART clock. -/
def Obligations.ReceiveRuleMovesOrDrops : Prop :=
  ∀ s : State,
    ((s.rxne && s.rxie) = false → rxRule s = .ok s) ∧
    ((s.rxne && s.rxie) = true → s.uartEn = false → rxRule s = .error (.raise .peripheralClockOff)) ∧
    ((s.rxne && s.rxie) = true → s.uartEn = true →
      (ringFull s.launch .rx (s.ringW .rx) (s.ringR .rx) = true →
        rxRule s = .ok { s with uartStat := s.uartStat &&& ~~~5#32 }) ∧
      (ringFull s.launch .rx (s.ringW .rx) (s.ringR .rx) = false →
        rxRule s = (putByte s .rx s.rxData).map fun t => { t with uartStat := s.uartStat &&& ~~~5#32 }))

/-- R278: with TXE and TXIE the transmit rule sends the oldest byte of TX, or clears TXIE if there is none; otherwise it
does nothing. Its UART writes need the switched clock and the UART clock (R57, R58, R306; for the TXIE clear, log entry
17); the handler never raises TxWhileBusy. -/
def Obligations.TransmitRuleSendsOrDisables : Prop :=
  ∀ s : State,
    ((s.txe && s.txie) = false → txRule s = .ok s) ∧
    ((s.txe && s.txie) = true → s.clockState = .switched → s.uartEn = true →
      (s.ringW .tx = s.ringR .tx →
        txRule s = .ok { s with uartCtrl := rwMerge 7 s.uartCtrl (s.regValue .uartCtrl &&& ~~~4#32) }) ∧
      (s.ringW .tx ≠ s.ringR .tx → (s.ringR .tx).toNat < s.launch.ntx →
        txRule s = .ok { s.release .tx with
          txData := memGet s.mem (s.launch.ringBaseTx + 8 + (s.ringR .tx).toNat)
          uartStat := s.uartStat &&& ~~~2#32 })) ∧
    ((s.txe && s.txie) = true → s.ringW .tx = s.ringR .tx ∨ (s.ringR .tx).toNat < s.launch.ntx →
      (s.clockState ≠ .switched → txRule s = .error (.raise .peripheralBeforeSwitched)) ∧
      (s.clockState = .switched → s.uartEn = false → txRule s = .error (.raise .peripheralClockOff))) ∧
    uartHandler s ≠ .error (.raise .txWhileBusy)

/-- R262, outside TRYPUT TX, which R233 says does not set TXIE (log entry 25): every step keeps that with a channel a
non-empty TX ring has TXIE = 1 but inside PUTC's enable. It holds when CHINIT's ms9 creates the channel, since both TX
indices are 0 there (R257), which every step keeps too. -/
def Obligations.EnableFollowsTheQueue : Prop :=
  ∀ s t : State, Memory.wf s.mem = true → ringsInRange s = true → driverExcluded s = true →
    chinitEmptiesTx s = true → (s.chen = true → ∀ b, decode s.current.word ≠ .ok (.tryput .tx b)) →
    enableFollowsQueue s = true → step s = .next t →
    enableFollowsQueue t = true ∧ chinitEmptiesTx t = true

/-- R231, R250, R352: no step brings a command the channel excludes past its ms1 while CHEN = 1. So the snapshot of a put
or get under way stays sound whatever agent steps in between (R107, R233, R234, R238, R260, R261): a stale R lets no ms2
overwrite an unread byte and a stale W none read an unwritten one, and at ms3 the slot is still the command's. -/
def Obligations.ChannelExclusionIsKept : Prop :=
  ∀ s t : State, driverExcluded s = true → step s = .next t → driverExcluded t = true ∧
    (Memory.wf s.mem = true → ringsInRange s = true → snapshotsSound s = true → snapshotsSound t = true)

/-- R63, R258: CHEN is set only by CHINIT's ms9 and cleared only by a wake from standby, whose state is a reset; a
second CHINIT faults. -/
def Obligations.ChannelIsNeverDestroyed : Prop :=
  ∀ s : State,
    (∀ t, step s = .next t →
      (s.chen = true → t.chen = false → s.pstate = .standby ∧ s.nextMove = .wake) ∧
      (s.chen = false → t.chen = true → decode s.current.word = .ok .chinit ∧ s.current.ms = .ms9)) ∧
    (s.chen = true → s.current.ms = .ms1 → exec .chinit s = .next (s.raise .ownershipViolation))

/-! ### Clock and power sequencer -/

/-- R182, R200: ms1 of BRINGUP and PDOWN starts CSEQ; ms2 waits for IDLE (PDOWN also for RUN), then completes. -/
def Obligations.BringupAndPdownMicroSteps : Prop :=
  ∀ (s : State) (mode : PowerMode),
    (s.current.ms = .ms1 →
      exec .bringup s = .next { s with seqState := .s1Flash, current := { s.current with ms := .ms2 } } ∧
      exec (.pdown mode) s = .next { s with seqState := .p1PwrEn, current := { s.current with ms := .ms2 } }) ∧
    (s.current.ms = .ms2 → s.seqState = .idle → exec .bringup s = .next s.done) ∧
    (s.current.ms = .ms2 → s.seqState = .idle → s.pstate = .run → exec (.pdown mode) s = .next s.done) ∧
    (s.current.ms = .ms2 → s.seqState ≠ .idle → exec .bringup s = .next s ∧ exec (.pdown mode) s = .next s) ∧
    (s.current.ms = .ms2 → s.pstate ≠ .run → exec (.pdown mode) s = .next s)

/-- R183, R184: S1_FLASH sets LATENCY; S2_XOSC_ON sets XOSCON and nothing else; S2_XOSC_WAIT spins until XOSCRDY. -/
def Obligations.SequencerFlashAndOscillator : Prop :=
  ∀ s : State,
    (s.seqState = .s1Flash → ∃ w, cseqStep s = .ok { s with flashAcr := w, seqState := .s2XoscOn } ∧
      fieldOf w 0 4 = s.launch.variant.latency) ∧
    (s.seqState = .s2XoscOn → ∃ w, cseqStep s = .ok { s with clkCr := w, seqState := .s2XoscWait } ∧
      w.getLsbD 8 = true ∧ ∀ j, j ≠ 8 → w.getLsbD j = s.clkCr.getLsbD j) ∧
    (s.seqState = .s2XoscWait → s.xoscRdy = true → cseqStep s = .ok { s with seqState := .s3PllCfg }) ∧
    (s.seqState = .s2XoscWait → s.xoscRdy = false → cseqStep s = .ok s)

/-- R185 to R187: S3_PLL_CFG writes the variant's configuration, or raises PllReconfigWhileOn; S3_PLL_ON sets PLLON, or
raises PllConfigIllegal; S3_PLL_WAIT spins until PLLRDY and then takes the variant's way. -/
def Obligations.SequencerPll : Prop :=
  ∀ s : State,
    (s.seqState = .s3PllCfg → s.pllOn = false → ∃ w, cseqStep s = .ok { s with clkPllcfg := w, seqState := .s3PllOn } ∧
      w &&& Slot.rwMask .clkPllcfg = pllCfgValue s.launch.variant ∧
      fieldOf w 0 6 = s.launch.variant.pllM ∧ fieldOf w 6 9 = s.launch.variant.pllN ∧
      fieldOf w 16 4 = s.launch.variant.pllP ∧ w.getLsbD 24 = true) ∧
    (s.seqState = .s3PllCfg → s.pllOn = true →
      s.clkPllcfg &&& Slot.rwMask .clkPllcfg ≠ pllCfgValue s.launch.variant →
      cseqStep s = .error (.raise .pllReconfigWhileOn)) ∧
    (s.seqState = .s3PllCfg → s.pllOn = true → s.clkPllcfg = pllCfgValue s.launch.variant →
      cseqStep s = .ok { s with seqState := .s3PllOn }) ∧
    (s.seqState = .s3PllOn → s.pllOn = true ∨ (s.pllM ≠ 0 ∧ s.pllN ≠ 0 ∧ s.pllP ≠ 0) →
      ∃ w, cseqStep s = .ok { s with clkCr := w, seqState := .s3PllWait } ∧ w.getLsbD 16 = true ∧
        ∀ j, j ≠ 16 → w.getLsbD j = s.clkCr.getLsbD j) ∧
    (s.seqState = .s3PllOn → s.pllOn = false → s.pllM = 0 ∨ s.pllN = 0 ∨ s.pllP = 0 →
      cseqStep s = .error (.raise .pllConfigIllegal)) ∧
    (s.seqState = .s3PllWait → s.pllRdy = false → cseqStep s = .ok s) ∧
    (s.seqState = .s3PllWait → s.pllRdy = true → cseqStep s = .ok { s with
      seqState := if s.launch.variant.prescInter = none then .s4PrescFinal else .s4PrescInter })

/-- R188 to R191, R193: the prescaler steps write the three codes in one write and keep SW and SWS, or raise
ReservedFieldValue; S5_SWITCH requests the PLL; S5_SWITCH_WAIT spins until SWS is the PLL. -/
def Obligations.SequencerPrescalerAndSwitch : Prop :=
  ∀ (s : State) (p : Prescaler) (q : SeqState),
    ((s.seqState = .s4PrescInter ∧ s.launch.variant.prescInter = some p ∧
        q = if s.launch.variant.finalAfterSwitch then .s5Switch else .s4PrescFinal) ∨
      (s.seqState = .s4PrescFinal ∧ s.launch.variant.prescFinal = p ∧ q = .s5Switch) ∨
      (s.seqState = .s4PrescLate ∧ s.launch.variant.prescFinal = p ∧ q = .s6TickArm) →
      (p.legal = true → s.sw ≠ 3 → ∃ t, cseqStep s = .ok t ∧
        t = { s with clkCfgr := t.clkCfgr, seqState := q } ∧ t.prescaler = p ∧ t.sw = s.sw ∧ t.sws = s.sws) ∧
      (p.legal = false → cseqStep s = .error (.raise .reservedFieldValue))) ∧
    (s.seqState = .s5Switch → clockCodesLegal s = true → ∃ t, cseqStep s = .ok t ∧
      t = { s with clkCfgr := t.clkCfgr, seqState := .s5SwitchWait } ∧ t.sw = 2 ∧ t.sws = s.sws ∧
      t.prescaler = s.prescaler) ∧
    (s.seqState = .s5SwitchWait → s.sws ≠ 2 → cseqStep s = .ok s) ∧
    (s.seqState = .s5SwitchWait → s.sws = 2 → cseqStep s = .ok { s with
      seqState := if s.launch.variant.finalAfterSwitch then .s4PrescLate else .s6TickArm })

/-- R194, R201 to R204: the tick is armed with F_TARGET div 1000, then enabled; power-down sets PWREN (checked against
clockState), PDDS from the latched MODE, SLEEPDEEP, and then sleeps. -/
def Obligations.SequencerTickAndPowerDown : Prop :=
  ∀ s : State,
    (s.seqState = .s6TickArm → s.launch.variant.fTarget / 1000 < 2 ^ 32 → cseqStep s = .ok { s with
      tickReload := BitVec.ofNat 32 (s.launch.variant.fTarget / 1000), seqState := .s6TickEn }) ∧
    (s.seqState = .s6TickEn → ∃ t, cseqStep s = .ok t ∧ t = { s with tickCtrl := t.tickCtrl, seqState := .idle } ∧
      t.regValue .tickCtrl = 3) ∧
    (s.seqState = .p1PwrEn → s.clockState = .switched → ∃ t, cseqStep s = .ok t ∧
      t = { s with penr := t.penr, seqState := .p2Mode } ∧ t.penr.getLsbD 1 = true ∧
      ∀ j, j ≠ 1 → t.penr.getLsbD j = s.penr.getLsbD j) ∧
    (s.seqState = .p1PwrEn → s.clockState ≠ .switched → cseqStep s = .error (.raise .peripheralBeforeSwitched)) ∧
    (s.seqState = .p2Mode → ∃ t, cseqStep s = .ok t ∧ t = { s with pwrCr := t.pwrCr, seqState := .p3Deep } ∧
      t.pdds = s.current.word.getLsbD 0) ∧
    (s.seqState = .p3Deep → ∃ t, cseqStep s = .ok t ∧ t = { s with scr := t.scr, seqState := .p4Wfe } ∧
      t.regValue .scr = 1) ∧
    (s.seqState = .p4Wfe → cseqStep s = .ok { s with pstate := if s.pdds then .standby else .stop })

/-- R195: for a well-formed variant no bring-up step raises an access fault, under two invariants of every step
(ClockCodesStayLegal): legal codes in CLK_CFGR, and a running PLL with the variant's configuration. -/
def Obligations.WellFormedBringupNeverFaults : Prop :=
  ∀ s : State, s.launch.variant.wellFormed = true → clockCodesLegal s = true →
    s.seqState ∉ [SeqState.p1PwrEn, .p2Mode, .p3Deep, .p4Wfe] →
    pllConfigHeld s = true → ∃ t, cseqStep s = .ok t

/-- R192, R195, R197: for a well-formed variant, one-step or two-step, whose crystal and PLL work, BRINGUP completes
without a fault in the end state of R195, by the moves of the variant's step order, from the reset values of the clock
registers, from its own end state (a second BRINGUP), and from that after a wake that reverts the clock (R205);
nothing but the registers it writes changes. -/
def Obligations.BringupReachesTheTarget : Prop :=
  ∀ s : State, s.fault = none → s.pstate = .run → s.busy = true → s.current.ms = .ms2 → s.seqState = .s1Flash →
    decode s.current.word = .ok .bringup → s.launch.variant.wellFormed = true →
    s.launch.variant.fTarget / 1000 < 2 ^ 32 → s.launch.xtalPresent = true → s.launch.pllLocks = true →
    ((s.flashAcr = 0 ∧ s.clkCr = 3 ∧ s.clkPllcfg = 0 ∧ s.clkCfgr = 0) ∨
      (s.latency = s.launch.variant.latency ∧ s.prescaler = s.launch.variant.prescFinal ∧
        s.regValue .clkPllcfg = pllCfgValue s.launch.variant ∧
        ((s.regValue .clkCr = 0x00030303 ∧ s.sw = 2 ∧ s.sws = 2) ∨
          (s.regValue .clkCr = 3 ∧ s.sw = 0 ∧ s.sws = 0)))) →
    ∃ t, runMoves (bringupMoves s.launch.variant) s = .next t ∧
      t = { s.done with
        seqState := .idle, flashAcr := t.flashAcr, clkCr := t.clkCr, clkPllcfg := t.clkPllcfg,
        clkCfgr := t.clkCfgr, tickReload := t.tickReload, tickCtrl := t.tickCtrl } ∧
      t.latency = s.launch.variant.latency ∧ t.regValue .clkCr = 0x00030303 ∧
      t.regValue .clkPllcfg = pllCfgValue s.launch.variant ∧ t.sw = 2 ∧ t.sws = 2 ∧
      t.prescaler = s.launch.variant.prescFinal ∧
      t.tickReload = BitVec.ofNat 32 (s.launch.variant.fTarget / 1000) ∧ t.regValue .tickCtrl = 3 ∧
      t.sysclk = s.launch.variant.fTarget ∧ t.clockState = .switched

/-- R210 to R212, R270, R271: when each clock and UART device is enabled in a running block, and the whole of its
step. -/
def Obligations.DevicesStepWhenEnabled : Prop :=
  ∀ (s : State) (b : Byte) (rest : List Byte), s.pstate = .run → s.fault = none →
    (enabled .osc s = true ↔ s.xoscOn = true ∧ s.xoscRdy = false ∧ s.launch.xtalPresent = true) ∧
    perform .osc s = .next { s with clkCr := s.clkCr ||| 0x200#32 } ∧
    (enabled .pll s = true ↔ s.pllOn = true ∧ s.pllRdy = false ∧ s.launch.pllLocks = true ∧
      (s.pllSrc = false ∨ s.xoscRdy = true)) ∧
    perform .pll s = .next { s with clkCr := s.clkCr ||| 0x20000#32 } ∧
    (s.sw ≠ 3 → (enabled .clksw s = true ↔ s.sws ≠ s.sw ∧ (s.sw = 1 → s.xoscRdy = true) ∧
      (s.sw = 2 → s.pllRdy = true))) ∧
    (∃ t, perform .clksw s = .next t ∧ t = { s with clkCfgr := t.clkCfgr } ∧ t.sws = s.sw ∧ t.sw = s.sw ∧
      t.prescaler = s.prescaler) ∧
    (enabled .utx s = true ↔ s.uartEn = true ∧ s.ue = true ∧ s.brd ≠ 0 ∧ s.txe = false) ∧
    perform .utx s = .next { s with lineOut := s.lineOut ++ [s.txData], uartStat := s.uartStat ||| 2#32 } ∧
    (enabled .urx s = true ↔ s.uartEn = true ∧ s.ue = true ∧ s.brd ≠ 0 ∧ s.lineIn ≠ []) ∧
    (s.lineIn = b :: rest → s.rxne = false →
      perform .urx s = .next { s with lineIn := rest, rxData := b, uartStat := s.uartStat ||| 1#32 }) ∧
    (s.lineIn = b :: rest → s.rxne = true →
      perform .urx s = .next { s with lineIn := rest, uartStat := s.uartStat ||| 4#32 })

/-- R67, R205, R207: asleep, no agent is enabled and WAKE is; a wake from stop resumes, and under revertToInternal puts
the clock back to the internal oscillator, so that clockState is reset; everything else is retained. -/
def Obligations.SleepAndWakeFromStop : Prop :=
  ∀ (s : State) (m : Move), s.fault = none →
    (s.pstate ≠ .run → (enabled m s = true ↔ m = .wake)) ∧
    (s.pstate = .stop → s.launch.stopPolicy = .retain →
      perform .wake s = .next { s with pstate := .run, seqState := .idle }) ∧
    (s.pstate = .stop → s.launch.stopPolicy = .revertToInternal → ∃ t, perform .wake s = .next t ∧
      t = { s with pstate := .run, seqState := .idle, clkCr := t.clkCr, clkCfgr := t.clkCfgr } ∧
      t.sw = 0 ∧ t.sws = 0 ∧ t.prescaler = s.prescaler ∧ t.xoscOn = false ∧ t.xoscRdy = false ∧
      t.pllOn = false ∧ t.pllRdy = false ∧ t.clockState = .reset)

/-- R206: a wake from standby is a reset that keeps LINE_IN, LINE_OUT and the launch parameters, for whatever the draws
are; HOST starts again at hpc = 0 with no current command. That ring RAM is emptied too, so that BUF reads 0, is the
model's choice (log entry 6). -/
def Obligations.WakeFromStandbyResets : Prop :=
  ∀ s : State, s.pstate = .standby → ∃ (d : Draws) (n : Nat),
    perform .wake s = .next (State.afterReset s.launch d s.lineIn s.lineOut s.schedule n)

/-! ### Interrupts, tick, mask -/

/-- R294 to R296, R305, R307: TICK latches TICKPEND; IRQE runs when an unmasked interrupt is to be delivered, the tick
handler if tickIrq holds, else the UART handler; the tick handler adds one to TICKS and clears TICKPEND. R275, R276:
the UART's condition, and its handler as the receive rule followed by the transmit rule in one step. -/
def Obligations.TickAndInterruptDelivery : Prop :=
  ∀ s : State, s.pstate = .run → s.fault = none →
    (enabled .tick s = true ↔ s.tickEn = true ∧ s.tickReload ≠ 0) ∧
    perform .tick s = .next { s with tickPend := true } ∧
    (enabled .irqe s = true ↔ s.imask = false ∧
      ((s.tickPend = true ∧ s.tickInt = true) ∨ (s.chen = true ∧ s.uartIrq = true))) ∧
    (s.uartIrq = true ↔ s.uartEn = true ∧ s.ue = true ∧
      ((s.rxne = true ∧ s.rxie = true) ∨ (s.txe = true ∧ s.txie = true))) ∧
    (s.tickPend = true → s.tickInt = true →
      perform .irqe s = .next { s with tickCount := s.tickCount + 1, tickPend := false }) ∧
    ((s.tickPend && s.tickInt) = false → perform .irqe s = commit s
      (match rxRule s with
        | .ok u => txRule u
        | .error e => .error e))

/-- R231, R276, R296, R306: a handler run touches no state of HOST's command and no port, the mask, the clock registers
or the power state; of ring RAM it stores only W_RX with its data slot and R_TX, so HOST's indices W_TX and R_RX stay. -/
def Obligations.HandlersLeaveHostAlone : Prop :=
  ∀ s t : State, perform .irqe s = .next t →
    t.current = s.current ∧ t.busy = s.busy ∧ t.arg = s.arg ∧ t.res = s.res ∧ t.hpc = s.hpc ∧
    t.seqState = s.seqState ∧ t.pstate = s.pstate ∧ t.imask = s.imask ∧ t.chen = s.chen ∧ t.scratch = s.scratch ∧
    t.clkCr = s.clkCr ∧ t.clkCfgr = s.clkCfgr ∧ t.clkPllcfg = s.clkPllcfg ∧ t.flashAcr = s.flashAcr ∧
    t.penr = s.penr ∧ t.tickCtrl = s.tickCtrl ∧ t.tickReload = s.tickReload ∧ t.lineIn = s.lineIn ∧
    t.lineOut = s.lineOut ∧ t.pwrCr = s.pwrCr ∧ t.scr = s.scr ∧ t.uartBaud = s.uartBaud ∧ t.rxData = s.rxData ∧
    t.launch = s.launch ∧
    (ringsInRange s = true →
      (∀ a : Nat, (∀ p ∈ handlerStoredBytes s, a < p.1 ∨ p.1 + p.2 ≤ a) → memGet t.mem a = memGet s.mem a) ∧
      t.ringW .tx = s.ringW .tx ∧ t.ringR .rx = s.ringR .rx)

/-- R293: TICKS changes only by a tick handler run, which adds exactly 1 and is an IRQE step with tickIrq, or by the
reset of a wake from standby. -/
def Obligations.TicksCountHandlerRuns : Prop :=
  ∀ s t : State, step s = .next t →
    t.tickCount = s.tickCount ∨
    (s.nextMove = .irqe ∧ s.tickIrq = true ∧ s.imask = false ∧ t.tickCount = s.tickCount + 1) ∨
    (s.nextMove = .wake ∧ s.pstate = .standby ∧ t.tickCount = 0)

/-- R290 to R292: IRQOFF sets IMASK, IRQON clears it, RDTICK gives TICKS; nothing else changes but the command's
completion. -/
def Obligations.MaskAndTickCommands : Prop :=
  ∀ s : State, s.current.ms = .ms1 →
    exec .irqoff s = .next { s.done with imask := true } ∧ exec .irqon s = .next { s.done with imask := false } ∧
    exec .rdtick s = .next (s.doneWith s.tickCount)

/-! ### Invariants of every step -/

/-- R312: the bus and flash limits hold in every state a step reaches without a fault, if they held before; and what
the checks after a step do: BusOverclock first, then FlashWaitStates, nothing in a state that already has a fault. -/
def Obligations.FrequencyLimitsHold : Prop :=
  (∀ s t : State, frequenciesOk s = true → step s = .next t →
    (t.fault = none → frequenciesOk t = true) ∧
    (frequenciesOk t = false → t.fault = some .busOverclock ∨ t.fault = some .flashWaitStates)) ∧
  ∀ u : State,
    (u.fault = none → checked (.next u) = .next
      (if u.launch.variant.ahbMaxHz < u.hclk ∨ u.launch.variant.apb1MaxHz < u.pclk1 ∨
          u.launch.variant.apb2MaxHz < u.pclk2 then u.raise .busOverclock
        else if u.launch.variant.flashMax u.latency < u.sysclk then u.raise .flashWaitStates
        else u)) ∧
    (u.fault ≠ none → checked (.next u) = .next u)

/-- R101, R102: every step keeps the canonical form of memory. -/
def Obligations.MemoryStaysCanonical : Prop :=
  ∀ s t : State, Memory.wf s.mem = true → step s = .next t → Memory.wf t.mem = true

/-- R8, R35, R41, R53, R185: no step changes the launch parameters, and every step keeps CLK_CFGR free of reserved
codes, SWS included, the reserved bits of every register 0, and the variant's configuration in a running PLL. -/
def Obligations.ClockCodesStayLegal : Prop :=
  ∀ s t : State, step s = .next t → t.launch = s.launch ∧ (clockCodesLegal s = true → clockCodesLegal t = true) ∧
    (reservedBitsClear s = true → reservedBitsClear t = true) ∧
    (pllConfigHeld s = true → pllConfigHeld t = true)

/-- R56, R182, R200, R204: every step keeps a legal latched command at a micro-step it has, the sequencer away from
IDLE only during BRINGUP or PDOWN, and sleep only at P4_WFE. -/
def Obligations.CommandStateStaysValid : Prop :=
  ∀ s t : State, commandValid s = true → sequencerValid s = true → step s = .next t →
    commandValid t = true ∧ sequencerValid t = true

/-- R13, R60: without a recorded fault, a valid command state and ring indices in range, every step gives a next state:
the model's own stops are reached from no such state. -/
def Obligations.NoStopWithoutARecordedFault : Prop :=
  ∀ s : State, s.fault = none → commandValid s = true → ringsInRange s = true → ∃ t, step s = .next t

/-- R68, R270, R271: LINE_OUT only grows at its end, by UTX; LINE_IN only loses bytes from its head, by URX; no reset
touches either. -/
def Obligations.LineIsAppendOnly : Prop :=
  ∀ s t : State, step s = .next t →
    (t.lineOut = s.lineOut ∨ (s.nextMove = .utx ∧ t.lineOut = s.lineOut ++ [s.txData])) ∧
    (t.lineIn = s.lineIn ∨ (s.nextMove = .urx ∧ ∃ b, s.lineIn = b :: t.lineIn))
end

