-- ==== Sys2Proof/Laws/Memory.lean ====
section
/-! SUPPORT. Ring RAM: a read after a write, and that every write keeps the canonical form. -/

namespace Sys2Proof.Machine

/-! ### One byte -/

theorem memAbove_cons (a b : Nat) (v : Byte) (m : List Host.Cell) :
    memAbove a ((b, v) :: m) = (decide (a < b) && memAbove a m) := rfl

theorem memAbove_mono {a b : Nat} {m : List Host.Cell} (hab : a ≤ b) (h : memAbove b m = true) :
    memAbove a m = true := by
  simp only [memAbove, List.all_eq_true, decide_eq_true_eq] at h ⊢
  intro c hc
  have := h c hc
  omega

/-- An address below every cell reads as an unlisted one. -/
theorem memGet_of_memAbove {a : Nat} {m : List Host.Cell} (h : memAbove a m = true) :
    memGet m a = unlistedByte := by
  induction m with
  | nil => rfl
  | cons c m ih =>
    obtain ⟨b, v⟩ := c
    simp only [memAbove_cons, Bool.and_eq_true, decide_eq_true_eq] at h
    have hne : a ≠ b := by omega
    simp [memGet, hne, ih h.2]

theorem memGet_cellOf_same {a : Nat} {v : Byte} {m : List Host.Cell} (h : memAbove a m = true) :
    memGet (cellOf a v m) a = v := by
  unfold cellOf
  split
  · next hv => rw [memGet_of_memAbove h, hv]
  · simp [memGet]

theorem memGet_cellOf_ne {a b : Nat} {v : Byte} {m : List Host.Cell} (h : b ≠ a) :
    memGet (cellOf a v m) b = memGet m b := by
  unfold cellOf
  split
  · rfl
  · simp [memGet, h]

theorem Memory.wf_cons (a : Nat) (v : Byte) (m : List Host.Cell) :
    Memory.wf ((a, v) :: m) = (decide (v ≠ unlistedByte) && memAbove a m && Memory.wf m) := rfl

/-- A byte written reads back, in memory of canonical form. -/
theorem memGet_memSet_same {m : List Host.Cell} (hm : Memory.wf m = true) (a : Nat) (v : Byte) :
    memGet (memSet m a v) a = v := by
  induction m with
  | nil => exact memGet_cellOf_same rfl
  | cons c m ih =>
    obtain ⟨b, w⟩ := c
    simp only [Memory.wf_cons, Bool.and_eq_true] at hm
    unfold memSet
    split
    · next h =>
      refine memGet_cellOf_same ?_
      simp [memAbove_cons, h, memAbove_mono (Nat.le_of_lt h) hm.1.2]
    · split
      · next h => subst h; exact memGet_cellOf_same hm.1.2
      · next h => simp [memGet, h, ih hm.2]

/-- A write leaves every other address as it reads. -/
theorem memGet_memSet_ne {a b : Nat} (h : b ≠ a) (m : List Host.Cell) (v : Byte) :
    memGet (memSet m a v) b = memGet m b := by
  induction m with
  | nil => exact memGet_cellOf_ne h
  | cons c m ih =>
    obtain ⟨d, w⟩ := c
    unfold memSet
    split
    · exact memGet_cellOf_ne h
    · split
      · next hd => subst hd; rw [memGet_cellOf_ne h]; simp [memGet, h]
      · simp only [memGet, ih]

theorem memAbove_cellOf {c a : Nat} {v : Byte} {m : List Host.Cell} (hc : c < a)
    (h : memAbove c m = true) : memAbove c (cellOf a v m) = true := by
  unfold cellOf
  split
  · exact h
  · simp [memAbove_cons, hc, h]

theorem memAbove_memSet {c a : Nat} {v : Byte} {m : List Host.Cell} (hc : c < a)
    (h : memAbove c m = true) : memAbove c (memSet m a v) = true := by
  induction m with
  | nil => exact memAbove_cellOf hc h
  | cons d m ih =>
    obtain ⟨b, w⟩ := d
    have h' := h
    simp only [memAbove_cons, Bool.and_eq_true, decide_eq_true_eq] at h'
    unfold memSet
    split
    · exact memAbove_cellOf hc h
    · split
      · exact memAbove_cellOf hc h'.2
      · simp [memAbove_cons, h'.1, ih h'.2]

theorem Memory.wf_cellOf {a : Nat} {v : Byte} {m : List Host.Cell} (hm : Memory.wf m = true)
    (h : memAbove a m = true) : Memory.wf (cellOf a v m) = true := by
  unfold cellOf
  split
  · exact hm
  · next hv => simp [Memory.wf_cons, hv, h, hm]

/-- Writing a byte keeps the canonical form. -/
theorem Memory.wf_memSet {m : List Host.Cell} (hm : Memory.wf m = true) (a : Nat) (v : Byte) :
    Memory.wf (memSet m a v) = true := by
  induction m with
  | nil => exact Memory.wf_cellOf hm rfl
  | cons c m ih =>
    obtain ⟨b, w⟩ := c
    have h' := hm
    simp only [Memory.wf_cons, Bool.and_eq_true] at h'
    unfold memSet
    split
    · next h =>
      refine Memory.wf_cellOf hm ?_
      simp [memAbove_cons, h, memAbove_mono (Nat.le_of_lt h) h'.1.2]
    · split
      · next h => subst h; exact Memory.wf_cellOf h'.2 h'.1.2
      · next h1 h2 =>
        have hb : b < a := by omega
        have hv : w ≠ unlistedByte := by simpa using h'.1.1
        simp [Memory.wf_cons, hv, memAbove_memSet hb h'.1.2, ih h'.2]

/-! ### Four bytes -/

/-- Writing a word keeps the canonical form. -/
theorem Memory.wf_memWrite4 {m : List Host.Cell} (hm : Memory.wf m = true) (a : Nat) (v : Word) :
    Memory.wf (memWrite4 m a v) = true :=
  wf_memSet (wf_memSet (wf_memSet (wf_memSet hm _ _) _ _) _ _) _ _

/-- A word write leaves every byte outside its four as it reads. -/
theorem memGet_memWrite4_outside {a b : Nat} (h : b < a ∨ a + 4 ≤ b) (m : List Host.Cell) (v : Word) :
    memGet (memWrite4 m a v) b = memGet m b := by
  unfold memWrite4
  rw [memGet_memSet_ne (by omega), memGet_memSet_ne (by omega), memGet_memSet_ne (by omega),
    memGet_memSet_ne (by omega)]

/-- The four bytes of a word, put together again. -/
theorem word_of_bytes (v : Word) :
    (v.extractLsb' 24 8 ++ v.extractLsb' 16 8 ++ v.extractLsb' 8 8 ++ v.extractLsb' 0 8 : Word) = v := by
  apply BitVec.eq_of_getLsbD_eq
  intro i hi
  simp only [BitVec.getLsbD_append, BitVec.getLsbD_extractLsb']
  split
  · next h => simp [h]
  · split
    · next h => simp [h]; congr 1; omega
    · split
      · next h => simp [h]; congr 1; omega
      · next h1 h2 h3 =>
        have h4 : i - 8 - 8 - 8 < 8 := by omega
        simp [h4]; congr 1; omega

/-- A word written reads back, in memory of canonical form. -/
theorem memRead4_memWrite4_same {m : List Host.Cell} (hm : Memory.wf m = true) (a : Nat) (v : Word) :
    memRead4 (memWrite4 m a v) a = v := by
  have h1 := Memory.wf_memSet hm a (v.extractLsb' 0 8)
  have h2 := Memory.wf_memSet h1 (a + 1) (v.extractLsb' 8 8)
  have h3 := Memory.wf_memSet h2 (a + 2) (v.extractLsb' 16 8)
  have b3 : memGet (memWrite4 m a v) (a + 3) = v.extractLsb' 24 8 := memGet_memSet_same h3 _ _
  have b2 : memGet (memWrite4 m a v) (a + 2) = v.extractLsb' 16 8 := by
    unfold memWrite4; rw [memGet_memSet_ne (by omega)]; exact memGet_memSet_same h2 _ _
  have b1 : memGet (memWrite4 m a v) (a + 1) = v.extractLsb' 8 8 := by
    unfold memWrite4; rw [memGet_memSet_ne (by omega), memGet_memSet_ne (by omega)]
    exact memGet_memSet_same h1 _ _
  have b0 : memGet (memWrite4 m a v) a = v.extractLsb' 0 8 := by
    unfold memWrite4
    rw [memGet_memSet_ne (by omega), memGet_memSet_ne (by omega), memGet_memSet_ne (by omega)]
    exact memGet_memSet_same hm _ _
  unfold memRead4
  rw [b3, b2, b1, b0]
  exact word_of_bytes v

/-- A word read sees only its four bytes. -/
theorem memRead4_congr {m n : List Host.Cell} {a : Nat}
    (h : ∀ b, a ≤ b → b < a + 4 → memGet m b = memGet n b) : memRead4 m a = memRead4 n a := by
  unfold memRead4
  rw [h (a + 3) (by omega) (by omega), h (a + 2) (by omega) (by omega), h (a + 1) (by omega) (by omega),
    h a (by omega) (by omega)]

/-- A word write leaves a word that it does not meet. -/
theorem memRead4_memWrite4_disjoint {a b : Nat} (h : b + 4 ≤ a ∨ a + 4 ≤ b) (m : List Host.Cell)
    (v : Word) : memRead4 (memWrite4 m a v) b = memRead4 m b :=
  memRead4_congr fun c _ _ => memGet_memWrite4_outside (by omega) m v

/-- A byte write leaves a word that it does not meet. -/
theorem memRead4_memSet_disjoint {a b : Nat} (h : a < b ∨ b + 4 ≤ a) (m : List Host.Cell) (v : Byte) :
    memRead4 (memSet m a v) b = memRead4 m b :=
  memRead4_congr fun c _ _ => memGet_memSet_ne (by omega) m v

end Sys2Proof.Machine
end

