-- ==== Sys2Proof/Laws/State.lean ====
section
/-! SUPPORT. One lemma per field and update of State: what each named update leaves and what it sets. -/

namespace Sys2Proof.Machine

/-! ### Raising a fault -/

@[simp] theorem State.raise_launch (s : State) (c : FaultCode) : (s.raise c).launch = s.launch := rfl
@[simp] theorem State.raise_arg (s : State) (c : FaultCode) : (s.raise c).arg = s.arg := rfl
@[simp] theorem State.raise_res (s : State) (c : FaultCode) : (s.raise c).res = s.res := rfl
@[simp] theorem State.raise_busy (s : State) (c : FaultCode) : (s.raise c).busy = s.busy := rfl
@[simp] theorem State.raise_seqState (s : State) (c : FaultCode) : (s.raise c).seqState = s.seqState := rfl
@[simp] theorem State.raise_pstate (s : State) (c : FaultCode) : (s.raise c).pstate = s.pstate := rfl
@[simp] theorem State.raise_hpc (s : State) (c : FaultCode) : (s.raise c).hpc = s.hpc := rfl
@[simp] theorem State.raise_current (s : State) (c : FaultCode) : (s.raise c).current = s.current := rfl
@[simp] theorem State.raise_scratch (s : State) (c : FaultCode) : (s.raise c).scratch = s.scratch := rfl
@[simp] theorem State.raise_flashAcr (s : State) (c : FaultCode) : (s.raise c).flashAcr = s.flashAcr := rfl
@[simp] theorem State.raise_clkCr (s : State) (c : FaultCode) : (s.raise c).clkCr = s.clkCr := rfl
@[simp] theorem State.raise_clkPllcfg (s : State) (c : FaultCode) : (s.raise c).clkPllcfg = s.clkPllcfg := rfl
@[simp] theorem State.raise_clkCfgr (s : State) (c : FaultCode) : (s.raise c).clkCfgr = s.clkCfgr := rfl
@[simp] theorem State.raise_penr (s : State) (c : FaultCode) : (s.raise c).penr = s.penr := rfl
@[simp] theorem State.raise_pwrCr (s : State) (c : FaultCode) : (s.raise c).pwrCr = s.pwrCr := rfl
@[simp] theorem State.raise_scr (s : State) (c : FaultCode) : (s.raise c).scr = s.scr := rfl
@[simp] theorem State.raise_tickCtrl (s : State) (c : FaultCode) : (s.raise c).tickCtrl = s.tickCtrl := rfl
@[simp] theorem State.raise_tickReload (s : State) (c : FaultCode) : (s.raise c).tickReload = s.tickReload := rfl
@[simp] theorem State.raise_tickCount (s : State) (c : FaultCode) : (s.raise c).tickCount = s.tickCount := rfl
@[simp] theorem State.raise_tickPend (s : State) (c : FaultCode) : (s.raise c).tickPend = s.tickPend := rfl
@[simp] theorem State.raise_uartStat (s : State) (c : FaultCode) : (s.raise c).uartStat = s.uartStat := rfl
@[simp] theorem State.raise_rxData (s : State) (c : FaultCode) : (s.raise c).rxData = s.rxData := rfl
@[simp] theorem State.raise_txData (s : State) (c : FaultCode) : (s.raise c).txData = s.txData := rfl
@[simp] theorem State.raise_uartCtrl (s : State) (c : FaultCode) : (s.raise c).uartCtrl = s.uartCtrl := rfl
@[simp] theorem State.raise_uartBaud (s : State) (c : FaultCode) : (s.raise c).uartBaud = s.uartBaud := rfl
@[simp] theorem State.raise_mem (s : State) (c : FaultCode) : (s.raise c).mem = s.mem := rfl
@[simp] theorem State.raise_chen (s : State) (c : FaultCode) : (s.raise c).chen = s.chen := rfl
@[simp] theorem State.raise_imask (s : State) (c : FaultCode) : (s.raise c).imask = s.imask := rfl
@[simp] theorem State.raise_lineIn (s : State) (c : FaultCode) : (s.raise c).lineIn = s.lineIn := rfl
@[simp] theorem State.raise_lineOut (s : State) (c : FaultCode) : (s.raise c).lineOut = s.lineOut := rfl
@[simp] theorem State.raise_schedule (s : State) (c : FaultCode) : (s.raise c).schedule = s.schedule := rfl
@[simp] theorem State.raise_freeCount (s : State) (c : FaultCode) : (s.raise c).freeCount = s.freeCount := rfl

@[simp] theorem State.raise_fault_of_none (s : State) (c : FaultCode) (h : s.fault = none) :
    (s.raise c).fault = some c := by simp [State.raise, h]

/-! ### Completing a command -/

@[simp] theorem State.done_launch (s : State) : (s.done).launch = s.launch := rfl
@[simp] theorem State.done_arg (s : State) : (s.done).arg = s.arg := rfl
@[simp] theorem State.done_res (s : State) : (s.done).res = s.res := rfl
@[simp] theorem State.done_busy (s : State) : (s.done).busy = false := rfl
@[simp] theorem State.done_fault (s : State) : (s.done).fault = s.fault := rfl
@[simp] theorem State.done_seqState (s : State) : (s.done).seqState = s.seqState := rfl
@[simp] theorem State.done_pstate (s : State) : (s.done).pstate = s.pstate := rfl
@[simp] theorem State.done_hpc (s : State) : (s.done).hpc = s.hpc := rfl
@[simp] theorem State.done_current (s : State) : (s.done).current = Current.none := rfl
@[simp] theorem State.done_scratch (s : State) : (s.done).scratch = s.scratch := rfl
@[simp] theorem State.done_flashAcr (s : State) : (s.done).flashAcr = s.flashAcr := rfl
@[simp] theorem State.done_clkCr (s : State) : (s.done).clkCr = s.clkCr := rfl
@[simp] theorem State.done_clkPllcfg (s : State) : (s.done).clkPllcfg = s.clkPllcfg := rfl
@[simp] theorem State.done_clkCfgr (s : State) : (s.done).clkCfgr = s.clkCfgr := rfl
@[simp] theorem State.done_penr (s : State) : (s.done).penr = s.penr := rfl
@[simp] theorem State.done_pwrCr (s : State) : (s.done).pwrCr = s.pwrCr := rfl
@[simp] theorem State.done_scr (s : State) : (s.done).scr = s.scr := rfl
@[simp] theorem State.done_tickCtrl (s : State) : (s.done).tickCtrl = s.tickCtrl := rfl
@[simp] theorem State.done_tickReload (s : State) : (s.done).tickReload = s.tickReload := rfl
@[simp] theorem State.done_tickCount (s : State) : (s.done).tickCount = s.tickCount := rfl
@[simp] theorem State.done_tickPend (s : State) : (s.done).tickPend = s.tickPend := rfl
@[simp] theorem State.done_uartStat (s : State) : (s.done).uartStat = s.uartStat := rfl
@[simp] theorem State.done_rxData (s : State) : (s.done).rxData = s.rxData := rfl
@[simp] theorem State.done_txData (s : State) : (s.done).txData = s.txData := rfl
@[simp] theorem State.done_uartCtrl (s : State) : (s.done).uartCtrl = s.uartCtrl := rfl
@[simp] theorem State.done_uartBaud (s : State) : (s.done).uartBaud = s.uartBaud := rfl
@[simp] theorem State.done_mem (s : State) : (s.done).mem = s.mem := rfl
@[simp] theorem State.done_chen (s : State) : (s.done).chen = s.chen := rfl
@[simp] theorem State.done_imask (s : State) : (s.done).imask = s.imask := rfl
@[simp] theorem State.done_lineIn (s : State) : (s.done).lineIn = s.lineIn := rfl
@[simp] theorem State.done_lineOut (s : State) : (s.done).lineOut = s.lineOut := rfl
@[simp] theorem State.done_schedule (s : State) : (s.done).schedule = s.schedule := rfl
@[simp] theorem State.done_freeCount (s : State) : (s.done).freeCount = s.freeCount := rfl

/-! ### Completing a command with a result -/

@[simp] theorem State.doneWith_launch (s : State) (r : Word) : (s.doneWith r).launch = s.launch := rfl
@[simp] theorem State.doneWith_arg (s : State) (r : Word) : (s.doneWith r).arg = s.arg := rfl
@[simp] theorem State.doneWith_res (s : State) (r : Word) : (s.doneWith r).res = r := rfl
@[simp] theorem State.doneWith_busy (s : State) (r : Word) : (s.doneWith r).busy = false := rfl
@[simp] theorem State.doneWith_fault (s : State) (r : Word) : (s.doneWith r).fault = s.fault := rfl
@[simp] theorem State.doneWith_seqState (s : State) (r : Word) : (s.doneWith r).seqState = s.seqState := rfl
@[simp] theorem State.doneWith_pstate (s : State) (r : Word) : (s.doneWith r).pstate = s.pstate := rfl
@[simp] theorem State.doneWith_hpc (s : State) (r : Word) : (s.doneWith r).hpc = s.hpc := rfl
@[simp] theorem State.doneWith_current (s : State) (r : Word) : (s.doneWith r).current = Current.none := rfl
@[simp] theorem State.doneWith_scratch (s : State) (r : Word) : (s.doneWith r).scratch = s.scratch := rfl
@[simp] theorem State.doneWith_flashAcr (s : State) (r : Word) : (s.doneWith r).flashAcr = s.flashAcr := rfl
@[simp] theorem State.doneWith_clkCr (s : State) (r : Word) : (s.doneWith r).clkCr = s.clkCr := rfl
@[simp] theorem State.doneWith_clkPllcfg (s : State) (r : Word) : (s.doneWith r).clkPllcfg = s.clkPllcfg := rfl
@[simp] theorem State.doneWith_clkCfgr (s : State) (r : Word) : (s.doneWith r).clkCfgr = s.clkCfgr := rfl
@[simp] theorem State.doneWith_penr (s : State) (r : Word) : (s.doneWith r).penr = s.penr := rfl
@[simp] theorem State.doneWith_pwrCr (s : State) (r : Word) : (s.doneWith r).pwrCr = s.pwrCr := rfl
@[simp] theorem State.doneWith_scr (s : State) (r : Word) : (s.doneWith r).scr = s.scr := rfl
@[simp] theorem State.doneWith_tickCtrl (s : State) (r : Word) : (s.doneWith r).tickCtrl = s.tickCtrl := rfl
@[simp] theorem State.doneWith_tickReload (s : State) (r : Word) : (s.doneWith r).tickReload = s.tickReload := rfl
@[simp] theorem State.doneWith_tickCount (s : State) (r : Word) : (s.doneWith r).tickCount = s.tickCount := rfl
@[simp] theorem State.doneWith_tickPend (s : State) (r : Word) : (s.doneWith r).tickPend = s.tickPend := rfl
@[simp] theorem State.doneWith_uartStat (s : State) (r : Word) : (s.doneWith r).uartStat = s.uartStat := rfl
@[simp] theorem State.doneWith_rxData (s : State) (r : Word) : (s.doneWith r).rxData = s.rxData := rfl
@[simp] theorem State.doneWith_txData (s : State) (r : Word) : (s.doneWith r).txData = s.txData := rfl
@[simp] theorem State.doneWith_uartCtrl (s : State) (r : Word) : (s.doneWith r).uartCtrl = s.uartCtrl := rfl
@[simp] theorem State.doneWith_uartBaud (s : State) (r : Word) : (s.doneWith r).uartBaud = s.uartBaud := rfl
@[simp] theorem State.doneWith_mem (s : State) (r : Word) : (s.doneWith r).mem = s.mem := rfl
@[simp] theorem State.doneWith_chen (s : State) (r : Word) : (s.doneWith r).chen = s.chen := rfl
@[simp] theorem State.doneWith_imask (s : State) (r : Word) : (s.doneWith r).imask = s.imask := rfl
@[simp] theorem State.doneWith_lineIn (s : State) (r : Word) : (s.doneWith r).lineIn = s.lineIn := rfl
@[simp] theorem State.doneWith_lineOut (s : State) (r : Word) : (s.doneWith r).lineOut = s.lineOut := rfl
@[simp] theorem State.doneWith_schedule (s : State) (r : Word) : (s.doneWith r).schedule = s.schedule := rfl
@[simp] theorem State.doneWith_freeCount (s : State) (r : Word) : (s.doneWith r).freeCount = s.freeCount := rfl

/-! ### Going to a micro-step -/

@[simp] theorem State.goto_launch (s : State) (ms : MicroStep) : (s.goto ms).launch = s.launch := rfl
@[simp] theorem State.goto_arg (s : State) (ms : MicroStep) : (s.goto ms).arg = s.arg := rfl
@[simp] theorem State.goto_res (s : State) (ms : MicroStep) : (s.goto ms).res = s.res := rfl
@[simp] theorem State.goto_busy (s : State) (ms : MicroStep) : (s.goto ms).busy = s.busy := rfl
@[simp] theorem State.goto_fault (s : State) (ms : MicroStep) : (s.goto ms).fault = s.fault := rfl
@[simp] theorem State.goto_seqState (s : State) (ms : MicroStep) : (s.goto ms).seqState = s.seqState := rfl
@[simp] theorem State.goto_pstate (s : State) (ms : MicroStep) : (s.goto ms).pstate = s.pstate := rfl
@[simp] theorem State.goto_hpc (s : State) (ms : MicroStep) : (s.goto ms).hpc = s.hpc := rfl
@[simp] theorem State.goto_current (s : State) (ms : MicroStep) : (s.goto ms).current = { s.current with ms := ms } := rfl
@[simp] theorem State.goto_scratch (s : State) (ms : MicroStep) : (s.goto ms).scratch = s.scratch := rfl
@[simp] theorem State.goto_flashAcr (s : State) (ms : MicroStep) : (s.goto ms).flashAcr = s.flashAcr := rfl
@[simp] theorem State.goto_clkCr (s : State) (ms : MicroStep) : (s.goto ms).clkCr = s.clkCr := rfl
@[simp] theorem State.goto_clkPllcfg (s : State) (ms : MicroStep) : (s.goto ms).clkPllcfg = s.clkPllcfg := rfl
@[simp] theorem State.goto_clkCfgr (s : State) (ms : MicroStep) : (s.goto ms).clkCfgr = s.clkCfgr := rfl
@[simp] theorem State.goto_penr (s : State) (ms : MicroStep) : (s.goto ms).penr = s.penr := rfl
@[simp] theorem State.goto_pwrCr (s : State) (ms : MicroStep) : (s.goto ms).pwrCr = s.pwrCr := rfl
@[simp] theorem State.goto_scr (s : State) (ms : MicroStep) : (s.goto ms).scr = s.scr := rfl
@[simp] theorem State.goto_tickCtrl (s : State) (ms : MicroStep) : (s.goto ms).tickCtrl = s.tickCtrl := rfl
@[simp] theorem State.goto_tickReload (s : State) (ms : MicroStep) : (s.goto ms).tickReload = s.tickReload := rfl
@[simp] theorem State.goto_tickCount (s : State) (ms : MicroStep) : (s.goto ms).tickCount = s.tickCount := rfl
@[simp] theorem State.goto_tickPend (s : State) (ms : MicroStep) : (s.goto ms).tickPend = s.tickPend := rfl
@[simp] theorem State.goto_uartStat (s : State) (ms : MicroStep) : (s.goto ms).uartStat = s.uartStat := rfl
@[simp] theorem State.goto_rxData (s : State) (ms : MicroStep) : (s.goto ms).rxData = s.rxData := rfl
@[simp] theorem State.goto_txData (s : State) (ms : MicroStep) : (s.goto ms).txData = s.txData := rfl
@[simp] theorem State.goto_uartCtrl (s : State) (ms : MicroStep) : (s.goto ms).uartCtrl = s.uartCtrl := rfl
@[simp] theorem State.goto_uartBaud (s : State) (ms : MicroStep) : (s.goto ms).uartBaud = s.uartBaud := rfl
@[simp] theorem State.goto_mem (s : State) (ms : MicroStep) : (s.goto ms).mem = s.mem := rfl
@[simp] theorem State.goto_chen (s : State) (ms : MicroStep) : (s.goto ms).chen = s.chen := rfl
@[simp] theorem State.goto_imask (s : State) (ms : MicroStep) : (s.goto ms).imask = s.imask := rfl
@[simp] theorem State.goto_lineIn (s : State) (ms : MicroStep) : (s.goto ms).lineIn = s.lineIn := rfl
@[simp] theorem State.goto_lineOut (s : State) (ms : MicroStep) : (s.goto ms).lineOut = s.lineOut := rfl
@[simp] theorem State.goto_schedule (s : State) (ms : MicroStep) : (s.goto ms).schedule = s.schedule := rfl
@[simp] theorem State.goto_freeCount (s : State) (ms : MicroStep) : (s.goto ms).freeCount = s.freeCount := rfl

/-! ### Index writes -/

@[simp] theorem State.setRingW_launch (s : State) (k : RingId) (v : Word) : (s.setRingW k v).launch = s.launch := rfl
@[simp] theorem State.setRingW_arg (s : State) (k : RingId) (v : Word) : (s.setRingW k v).arg = s.arg := rfl
@[simp] theorem State.setRingW_res (s : State) (k : RingId) (v : Word) : (s.setRingW k v).res = s.res := rfl
@[simp] theorem State.setRingW_busy (s : State) (k : RingId) (v : Word) : (s.setRingW k v).busy = s.busy := rfl
@[simp] theorem State.setRingW_fault (s : State) (k : RingId) (v : Word) : (s.setRingW k v).fault = s.fault := rfl
@[simp] theorem State.setRingW_seqState (s : State) (k : RingId) (v : Word) : (s.setRingW k v).seqState = s.seqState := rfl
@[simp] theorem State.setRingW_pstate (s : State) (k : RingId) (v : Word) : (s.setRingW k v).pstate = s.pstate := rfl
@[simp] theorem State.setRingW_hpc (s : State) (k : RingId) (v : Word) : (s.setRingW k v).hpc = s.hpc := rfl
@[simp] theorem State.setRingW_current (s : State) (k : RingId) (v : Word) : (s.setRingW k v).current = s.current := rfl
@[simp] theorem State.setRingW_scratch (s : State) (k : RingId) (v : Word) : (s.setRingW k v).scratch = s.scratch := rfl
@[simp] theorem State.setRingW_flashAcr (s : State) (k : RingId) (v : Word) : (s.setRingW k v).flashAcr = s.flashAcr := rfl
@[simp] theorem State.setRingW_clkCr (s : State) (k : RingId) (v : Word) : (s.setRingW k v).clkCr = s.clkCr := rfl
@[simp] theorem State.setRingW_clkPllcfg (s : State) (k : RingId) (v : Word) : (s.setRingW k v).clkPllcfg = s.clkPllcfg := rfl
@[simp] theorem State.setRingW_clkCfgr (s : State) (k : RingId) (v : Word) : (s.setRingW k v).clkCfgr = s.clkCfgr := rfl
@[simp] theorem State.setRingW_penr (s : State) (k : RingId) (v : Word) : (s.setRingW k v).penr = s.penr := rfl
@[simp] theorem State.setRingW_pwrCr (s : State) (k : RingId) (v : Word) : (s.setRingW k v).pwrCr = s.pwrCr := rfl
@[simp] theorem State.setRingW_scr (s : State) (k : RingId) (v : Word) : (s.setRingW k v).scr = s.scr := rfl
@[simp] theorem State.setRingW_tickCtrl (s : State) (k : RingId) (v : Word) : (s.setRingW k v).tickCtrl = s.tickCtrl := rfl
@[simp] theorem State.setRingW_tickReload (s : State) (k : RingId) (v : Word) : (s.setRingW k v).tickReload = s.tickReload := rfl
@[simp] theorem State.setRingW_tickCount (s : State) (k : RingId) (v : Word) : (s.setRingW k v).tickCount = s.tickCount := rfl
@[simp] theorem State.setRingW_tickPend (s : State) (k : RingId) (v : Word) : (s.setRingW k v).tickPend = s.tickPend := rfl
@[simp] theorem State.setRingW_uartStat (s : State) (k : RingId) (v : Word) : (s.setRingW k v).uartStat = s.uartStat := rfl
@[simp] theorem State.setRingW_rxData (s : State) (k : RingId) (v : Word) : (s.setRingW k v).rxData = s.rxData := rfl
@[simp] theorem State.setRingW_txData (s : State) (k : RingId) (v : Word) : (s.setRingW k v).txData = s.txData := rfl
@[simp] theorem State.setRingW_uartCtrl (s : State) (k : RingId) (v : Word) : (s.setRingW k v).uartCtrl = s.uartCtrl := rfl
@[simp] theorem State.setRingW_uartBaud (s : State) (k : RingId) (v : Word) : (s.setRingW k v).uartBaud = s.uartBaud := rfl
@[simp] theorem State.setRingW_mem (s : State) (k : RingId) (v : Word) : (s.setRingW k v).mem = memWrite4 s.mem (ringBase s.launch k) v := rfl
@[simp] theorem State.setRingW_chen (s : State) (k : RingId) (v : Word) : (s.setRingW k v).chen = s.chen := rfl
@[simp] theorem State.setRingW_imask (s : State) (k : RingId) (v : Word) : (s.setRingW k v).imask = s.imask := rfl
@[simp] theorem State.setRingW_lineIn (s : State) (k : RingId) (v : Word) : (s.setRingW k v).lineIn = s.lineIn := rfl
@[simp] theorem State.setRingW_lineOut (s : State) (k : RingId) (v : Word) : (s.setRingW k v).lineOut = s.lineOut := rfl
@[simp] theorem State.setRingW_schedule (s : State) (k : RingId) (v : Word) : (s.setRingW k v).schedule = s.schedule := rfl
@[simp] theorem State.setRingW_freeCount (s : State) (k : RingId) (v : Word) : (s.setRingW k v).freeCount = s.freeCount := rfl

/-! ### Index writes -/

@[simp] theorem State.setRingR_launch (s : State) (k : RingId) (v : Word) : (s.setRingR k v).launch = s.launch := rfl
@[simp] theorem State.setRingR_arg (s : State) (k : RingId) (v : Word) : (s.setRingR k v).arg = s.arg := rfl
@[simp] theorem State.setRingR_res (s : State) (k : RingId) (v : Word) : (s.setRingR k v).res = s.res := rfl
@[simp] theorem State.setRingR_busy (s : State) (k : RingId) (v : Word) : (s.setRingR k v).busy = s.busy := rfl
@[simp] theorem State.setRingR_fault (s : State) (k : RingId) (v : Word) : (s.setRingR k v).fault = s.fault := rfl
@[simp] theorem State.setRingR_seqState (s : State) (k : RingId) (v : Word) : (s.setRingR k v).seqState = s.seqState := rfl
@[simp] theorem State.setRingR_pstate (s : State) (k : RingId) (v : Word) : (s.setRingR k v).pstate = s.pstate := rfl
@[simp] theorem State.setRingR_hpc (s : State) (k : RingId) (v : Word) : (s.setRingR k v).hpc = s.hpc := rfl
@[simp] theorem State.setRingR_current (s : State) (k : RingId) (v : Word) : (s.setRingR k v).current = s.current := rfl
@[simp] theorem State.setRingR_scratch (s : State) (k : RingId) (v : Word) : (s.setRingR k v).scratch = s.scratch := rfl
@[simp] theorem State.setRingR_flashAcr (s : State) (k : RingId) (v : Word) : (s.setRingR k v).flashAcr = s.flashAcr := rfl
@[simp] theorem State.setRingR_clkCr (s : State) (k : RingId) (v : Word) : (s.setRingR k v).clkCr = s.clkCr := rfl
@[simp] theorem State.setRingR_clkPllcfg (s : State) (k : RingId) (v : Word) : (s.setRingR k v).clkPllcfg = s.clkPllcfg := rfl
@[simp] theorem State.setRingR_clkCfgr (s : State) (k : RingId) (v : Word) : (s.setRingR k v).clkCfgr = s.clkCfgr := rfl
@[simp] theorem State.setRingR_penr (s : State) (k : RingId) (v : Word) : (s.setRingR k v).penr = s.penr := rfl
@[simp] theorem State.setRingR_pwrCr (s : State) (k : RingId) (v : Word) : (s.setRingR k v).pwrCr = s.pwrCr := rfl
@[simp] theorem State.setRingR_scr (s : State) (k : RingId) (v : Word) : (s.setRingR k v).scr = s.scr := rfl
@[simp] theorem State.setRingR_tickCtrl (s : State) (k : RingId) (v : Word) : (s.setRingR k v).tickCtrl = s.tickCtrl := rfl
@[simp] theorem State.setRingR_tickReload (s : State) (k : RingId) (v : Word) : (s.setRingR k v).tickReload = s.tickReload := rfl
@[simp] theorem State.setRingR_tickCount (s : State) (k : RingId) (v : Word) : (s.setRingR k v).tickCount = s.tickCount := rfl
@[simp] theorem State.setRingR_tickPend (s : State) (k : RingId) (v : Word) : (s.setRingR k v).tickPend = s.tickPend := rfl
@[simp] theorem State.setRingR_uartStat (s : State) (k : RingId) (v : Word) : (s.setRingR k v).uartStat = s.uartStat := rfl
@[simp] theorem State.setRingR_rxData (s : State) (k : RingId) (v : Word) : (s.setRingR k v).rxData = s.rxData := rfl
@[simp] theorem State.setRingR_txData (s : State) (k : RingId) (v : Word) : (s.setRingR k v).txData = s.txData := rfl
@[simp] theorem State.setRingR_uartCtrl (s : State) (k : RingId) (v : Word) : (s.setRingR k v).uartCtrl = s.uartCtrl := rfl
@[simp] theorem State.setRingR_uartBaud (s : State) (k : RingId) (v : Word) : (s.setRingR k v).uartBaud = s.uartBaud := rfl
@[simp] theorem State.setRingR_mem (s : State) (k : RingId) (v : Word) : (s.setRingR k v).mem = memWrite4 s.mem (ringBase s.launch k + 4) v := rfl
@[simp] theorem State.setRingR_chen (s : State) (k : RingId) (v : Word) : (s.setRingR k v).chen = s.chen := rfl
@[simp] theorem State.setRingR_imask (s : State) (k : RingId) (v : Word) : (s.setRingR k v).imask = s.imask := rfl
@[simp] theorem State.setRingR_lineIn (s : State) (k : RingId) (v : Word) : (s.setRingR k v).lineIn = s.lineIn := rfl
@[simp] theorem State.setRingR_lineOut (s : State) (k : RingId) (v : Word) : (s.setRingR k v).lineOut = s.lineOut := rfl
@[simp] theorem State.setRingR_schedule (s : State) (k : RingId) (v : Word) : (s.setRingR k v).schedule = s.schedule := rfl
@[simp] theorem State.setRingR_freeCount (s : State) (k : RingId) (v : Word) : (s.setRingR k v).freeCount = s.freeCount := rfl

/-! ### Publishing a byte -/

@[simp] theorem State.publish_launch (s : State) (k : RingId) : (s.publish k).launch = s.launch := rfl
@[simp] theorem State.publish_arg (s : State) (k : RingId) : (s.publish k).arg = s.arg := rfl
@[simp] theorem State.publish_res (s : State) (k : RingId) : (s.publish k).res = s.res := rfl
@[simp] theorem State.publish_busy (s : State) (k : RingId) : (s.publish k).busy = s.busy := rfl
@[simp] theorem State.publish_fault (s : State) (k : RingId) : (s.publish k).fault = s.fault := rfl
@[simp] theorem State.publish_seqState (s : State) (k : RingId) : (s.publish k).seqState = s.seqState := rfl
@[simp] theorem State.publish_pstate (s : State) (k : RingId) : (s.publish k).pstate = s.pstate := rfl
@[simp] theorem State.publish_hpc (s : State) (k : RingId) : (s.publish k).hpc = s.hpc := rfl
@[simp] theorem State.publish_current (s : State) (k : RingId) : (s.publish k).current = s.current := rfl
@[simp] theorem State.publish_scratch (s : State) (k : RingId) : (s.publish k).scratch = s.scratch := rfl
@[simp] theorem State.publish_flashAcr (s : State) (k : RingId) : (s.publish k).flashAcr = s.flashAcr := rfl
@[simp] theorem State.publish_clkCr (s : State) (k : RingId) : (s.publish k).clkCr = s.clkCr := rfl
@[simp] theorem State.publish_clkPllcfg (s : State) (k : RingId) : (s.publish k).clkPllcfg = s.clkPllcfg := rfl
@[simp] theorem State.publish_clkCfgr (s : State) (k : RingId) : (s.publish k).clkCfgr = s.clkCfgr := rfl
@[simp] theorem State.publish_penr (s : State) (k : RingId) : (s.publish k).penr = s.penr := rfl
@[simp] theorem State.publish_pwrCr (s : State) (k : RingId) : (s.publish k).pwrCr = s.pwrCr := rfl
@[simp] theorem State.publish_scr (s : State) (k : RingId) : (s.publish k).scr = s.scr := rfl
@[simp] theorem State.publish_tickCtrl (s : State) (k : RingId) : (s.publish k).tickCtrl = s.tickCtrl := rfl
@[simp] theorem State.publish_tickReload (s : State) (k : RingId) : (s.publish k).tickReload = s.tickReload := rfl
@[simp] theorem State.publish_tickCount (s : State) (k : RingId) : (s.publish k).tickCount = s.tickCount := rfl
@[simp] theorem State.publish_tickPend (s : State) (k : RingId) : (s.publish k).tickPend = s.tickPend := rfl
@[simp] theorem State.publish_uartStat (s : State) (k : RingId) : (s.publish k).uartStat = s.uartStat := rfl
@[simp] theorem State.publish_rxData (s : State) (k : RingId) : (s.publish k).rxData = s.rxData := rfl
@[simp] theorem State.publish_txData (s : State) (k : RingId) : (s.publish k).txData = s.txData := rfl
@[simp] theorem State.publish_uartCtrl (s : State) (k : RingId) : (s.publish k).uartCtrl = s.uartCtrl := rfl
@[simp] theorem State.publish_uartBaud (s : State) (k : RingId) : (s.publish k).uartBaud = s.uartBaud := rfl
@[simp] theorem State.publish_chen (s : State) (k : RingId) : (s.publish k).chen = s.chen := rfl
@[simp] theorem State.publish_imask (s : State) (k : RingId) : (s.publish k).imask = s.imask := rfl
@[simp] theorem State.publish_lineIn (s : State) (k : RingId) : (s.publish k).lineIn = s.lineIn := rfl
@[simp] theorem State.publish_lineOut (s : State) (k : RingId) : (s.publish k).lineOut = s.lineOut := rfl
@[simp] theorem State.publish_schedule (s : State) (k : RingId) : (s.publish k).schedule = s.schedule := rfl
@[simp] theorem State.publish_freeCount (s : State) (k : RingId) : (s.publish k).freeCount = s.freeCount := rfl

/-! ### Releasing a slot -/

@[simp] theorem State.release_launch (s : State) (k : RingId) : (s.release k).launch = s.launch := rfl
@[simp] theorem State.release_arg (s : State) (k : RingId) : (s.release k).arg = s.arg := rfl
@[simp] theorem State.release_res (s : State) (k : RingId) : (s.release k).res = s.res := rfl
@[simp] theorem State.release_busy (s : State) (k : RingId) : (s.release k).busy = s.busy := rfl
@[simp] theorem State.release_fault (s : State) (k : RingId) : (s.release k).fault = s.fault := rfl
@[simp] theorem State.release_seqState (s : State) (k : RingId) : (s.release k).seqState = s.seqState := rfl
@[simp] theorem State.release_pstate (s : State) (k : RingId) : (s.release k).pstate = s.pstate := rfl
@[simp] theorem State.release_hpc (s : State) (k : RingId) : (s.release k).hpc = s.hpc := rfl
@[simp] theorem State.release_current (s : State) (k : RingId) : (s.release k).current = s.current := rfl
@[simp] theorem State.release_scratch (s : State) (k : RingId) : (s.release k).scratch = s.scratch := rfl
@[simp] theorem State.release_flashAcr (s : State) (k : RingId) : (s.release k).flashAcr = s.flashAcr := rfl
@[simp] theorem State.release_clkCr (s : State) (k : RingId) : (s.release k).clkCr = s.clkCr := rfl
@[simp] theorem State.release_clkPllcfg (s : State) (k : RingId) : (s.release k).clkPllcfg = s.clkPllcfg := rfl
@[simp] theorem State.release_clkCfgr (s : State) (k : RingId) : (s.release k).clkCfgr = s.clkCfgr := rfl
@[simp] theorem State.release_penr (s : State) (k : RingId) : (s.release k).penr = s.penr := rfl
@[simp] theorem State.release_pwrCr (s : State) (k : RingId) : (s.release k).pwrCr = s.pwrCr := rfl
@[simp] theorem State.release_scr (s : State) (k : RingId) : (s.release k).scr = s.scr := rfl
@[simp] theorem State.release_tickCtrl (s : State) (k : RingId) : (s.release k).tickCtrl = s.tickCtrl := rfl
@[simp] theorem State.release_tickReload (s : State) (k : RingId) : (s.release k).tickReload = s.tickReload := rfl
@[simp] theorem State.release_tickCount (s : State) (k : RingId) : (s.release k).tickCount = s.tickCount := rfl
@[simp] theorem State.release_tickPend (s : State) (k : RingId) : (s.release k).tickPend = s.tickPend := rfl
@[simp] theorem State.release_uartStat (s : State) (k : RingId) : (s.release k).uartStat = s.uartStat := rfl
@[simp] theorem State.release_rxData (s : State) (k : RingId) : (s.release k).rxData = s.rxData := rfl
@[simp] theorem State.release_txData (s : State) (k : RingId) : (s.release k).txData = s.txData := rfl
@[simp] theorem State.release_uartCtrl (s : State) (k : RingId) : (s.release k).uartCtrl = s.uartCtrl := rfl
@[simp] theorem State.release_uartBaud (s : State) (k : RingId) : (s.release k).uartBaud = s.uartBaud := rfl
@[simp] theorem State.release_chen (s : State) (k : RingId) : (s.release k).chen = s.chen := rfl
@[simp] theorem State.release_imask (s : State) (k : RingId) : (s.release k).imask = s.imask := rfl
@[simp] theorem State.release_lineIn (s : State) (k : RingId) : (s.release k).lineIn = s.lineIn := rfl
@[simp] theorem State.release_lineOut (s : State) (k : RingId) : (s.release k).lineOut = s.lineOut := rfl
@[simp] theorem State.release_schedule (s : State) (k : RingId) : (s.release k).schedule = s.schedule := rfl
@[simp] theorem State.release_freeCount (s : State) (k : RingId) : (s.release k).freeCount = s.freeCount := rfl

/-! ### The side effects of a read -/

@[simp] theorem State.afterRead_launch (s : State) (r : Slot) : (s.afterRead r).launch = s.launch := by
  unfold State.afterRead; split <;> rfl
@[simp] theorem State.afterRead_arg (s : State) (r : Slot) : (s.afterRead r).arg = s.arg := by
  unfold State.afterRead; split <;> rfl
@[simp] theorem State.afterRead_res (s : State) (r : Slot) : (s.afterRead r).res = s.res := by
  unfold State.afterRead; split <;> rfl
@[simp] theorem State.afterRead_busy (s : State) (r : Slot) : (s.afterRead r).busy = s.busy := by
  unfold State.afterRead; split <;> rfl
@[simp] theorem State.afterRead_fault (s : State) (r : Slot) : (s.afterRead r).fault = s.fault := by
  unfold State.afterRead; split <;> rfl
@[simp] theorem State.afterRead_seqState (s : State) (r : Slot) : (s.afterRead r).seqState = s.seqState := by
  unfold State.afterRead; split <;> rfl
@[simp] theorem State.afterRead_pstate (s : State) (r : Slot) : (s.afterRead r).pstate = s.pstate := by
  unfold State.afterRead; split <;> rfl
@[simp] theorem State.afterRead_hpc (s : State) (r : Slot) : (s.afterRead r).hpc = s.hpc := by
  unfold State.afterRead; split <;> rfl
@[simp] theorem State.afterRead_current (s : State) (r : Slot) : (s.afterRead r).current = s.current := by
  unfold State.afterRead; split <;> rfl
@[simp] theorem State.afterRead_scratch (s : State) (r : Slot) : (s.afterRead r).scratch = s.scratch := by
  unfold State.afterRead; split <;> rfl
@[simp] theorem State.afterRead_flashAcr (s : State) (r : Slot) : (s.afterRead r).flashAcr = s.flashAcr := by
  unfold State.afterRead; split <;> rfl
@[simp] theorem State.afterRead_clkCr (s : State) (r : Slot) : (s.afterRead r).clkCr = s.clkCr := by
  unfold State.afterRead; split <;> rfl
@[simp] theorem State.afterRead_clkPllcfg (s : State) (r : Slot) : (s.afterRead r).clkPllcfg = s.clkPllcfg := by
  unfold State.afterRead; split <;> rfl
@[simp] theorem State.afterRead_clkCfgr (s : State) (r : Slot) : (s.afterRead r).clkCfgr = s.clkCfgr := by
  unfold State.afterRead; split <;> rfl
@[simp] theorem State.afterRead_penr (s : State) (r : Slot) : (s.afterRead r).penr = s.penr := by
  unfold State.afterRead; split <;> rfl
@[simp] theorem State.afterRead_pwrCr (s : State) (r : Slot) : (s.afterRead r).pwrCr = s.pwrCr := by
  unfold State.afterRead; split <;> rfl
@[simp] theorem State.afterRead_scr (s : State) (r : Slot) : (s.afterRead r).scr = s.scr := by
  unfold State.afterRead; split <;> rfl
@[simp] theorem State.afterRead_tickCtrl (s : State) (r : Slot) : (s.afterRead r).tickCtrl = s.tickCtrl := by
  unfold State.afterRead; split <;> rfl
@[simp] theorem State.afterRead_tickReload (s : State) (r : Slot) : (s.afterRead r).tickReload = s.tickReload := by
  unfold State.afterRead; split <;> rfl
@[simp] theorem State.afterRead_tickCount (s : State) (r : Slot) : (s.afterRead r).tickCount = s.tickCount := by
  unfold State.afterRead; split <;> rfl
@[simp] theorem State.afterRead_tickPend (s : State) (r : Slot) : (s.afterRead r).tickPend = s.tickPend := by
  unfold State.afterRead; split <;> rfl
@[simp] theorem State.afterRead_rxData (s : State) (r : Slot) : (s.afterRead r).rxData = s.rxData := by
  unfold State.afterRead; split <;> rfl
@[simp] theorem State.afterRead_txData (s : State) (r : Slot) : (s.afterRead r).txData = s.txData := by
  unfold State.afterRead; split <;> rfl
@[simp] theorem State.afterRead_uartCtrl (s : State) (r : Slot) : (s.afterRead r).uartCtrl = s.uartCtrl := by
  unfold State.afterRead; split <;> rfl
@[simp] theorem State.afterRead_uartBaud (s : State) (r : Slot) : (s.afterRead r).uartBaud = s.uartBaud := by
  unfold State.afterRead; split <;> rfl
@[simp] theorem State.afterRead_mem (s : State) (r : Slot) : (s.afterRead r).mem = s.mem := by
  unfold State.afterRead; split <;> rfl
@[simp] theorem State.afterRead_chen (s : State) (r : Slot) : (s.afterRead r).chen = s.chen := by
  unfold State.afterRead; split <;> rfl
@[simp] theorem State.afterRead_imask (s : State) (r : Slot) : (s.afterRead r).imask = s.imask := by
  unfold State.afterRead; split <;> rfl
@[simp] theorem State.afterRead_lineIn (s : State) (r : Slot) : (s.afterRead r).lineIn = s.lineIn := by
  unfold State.afterRead; split <;> rfl
@[simp] theorem State.afterRead_lineOut (s : State) (r : Slot) : (s.afterRead r).lineOut = s.lineOut := by
  unfold State.afterRead; split <;> rfl
@[simp] theorem State.afterRead_schedule (s : State) (r : Slot) : (s.afterRead r).schedule = s.schedule := by
  unfold State.afterRead; split <;> rfl
@[simp] theorem State.afterRead_freeCount (s : State) (r : Slot) : (s.afterRead r).freeCount = s.freeCount := by
  unfold State.afterRead; split <;> rfl

/-! ### A register write -/

@[simp] theorem State.regWrite_launch (s : State) (r : Slot) (v : Word) : (s.regWrite r v).launch = s.launch := by
  cases r <;> rfl
@[simp] theorem State.regWrite_arg (s : State) (r : Slot) (v : Word) : (s.regWrite r v).arg = s.arg := by
  cases r <;> rfl
@[simp] theorem State.regWrite_res (s : State) (r : Slot) (v : Word) : (s.regWrite r v).res = s.res := by
  cases r <;> rfl
@[simp] theorem State.regWrite_busy (s : State) (r : Slot) (v : Word) : (s.regWrite r v).busy = s.busy := by
  cases r <;> rfl
@[simp] theorem State.regWrite_fault (s : State) (r : Slot) (v : Word) : (s.regWrite r v).fault = s.fault := by
  cases r <;> rfl
@[simp] theorem State.regWrite_seqState (s : State) (r : Slot) (v : Word) : (s.regWrite r v).seqState = s.seqState := by
  cases r <;> rfl
@[simp] theorem State.regWrite_pstate (s : State) (r : Slot) (v : Word) : (s.regWrite r v).pstate = s.pstate := by
  cases r <;> rfl
@[simp] theorem State.regWrite_hpc (s : State) (r : Slot) (v : Word) : (s.regWrite r v).hpc = s.hpc := by
  cases r <;> rfl
@[simp] theorem State.regWrite_current (s : State) (r : Slot) (v : Word) : (s.regWrite r v).current = s.current := by
  cases r <;> rfl
@[simp] theorem State.regWrite_tickCount (s : State) (r : Slot) (v : Word) : (s.regWrite r v).tickCount = s.tickCount := by
  cases r <;> rfl
@[simp] theorem State.regWrite_tickPend (s : State) (r : Slot) (v : Word) : (s.regWrite r v).tickPend = s.tickPend := by
  cases r <;> rfl
@[simp] theorem State.regWrite_rxData (s : State) (r : Slot) (v : Word) : (s.regWrite r v).rxData = s.rxData := by
  cases r <;> rfl
@[simp] theorem State.regWrite_mem (s : State) (r : Slot) (v : Word) : (s.regWrite r v).mem = s.mem := by
  cases r <;> rfl
@[simp] theorem State.regWrite_chen (s : State) (r : Slot) (v : Word) : (s.regWrite r v).chen = s.chen := by
  cases r <;> rfl
@[simp] theorem State.regWrite_imask (s : State) (r : Slot) (v : Word) : (s.regWrite r v).imask = s.imask := by
  cases r <;> rfl
@[simp] theorem State.regWrite_lineIn (s : State) (r : Slot) (v : Word) : (s.regWrite r v).lineIn = s.lineIn := by
  cases r <;> rfl
@[simp] theorem State.regWrite_lineOut (s : State) (r : Slot) (v : Word) : (s.regWrite r v).lineOut = s.lineOut := by
  cases r <;> rfl
@[simp] theorem State.regWrite_schedule (s : State) (r : Slot) (v : Word) : (s.regWrite r v).schedule = s.schedule := by
  cases r <;> rfl
@[simp] theorem State.regWrite_freeCount (s : State) (r : Slot) (v : Word) : (s.regWrite r v).freeCount = s.freeCount := by
  cases r <;> rfl

/-! ### Taking the next move -/

@[simp] theorem State.takeMove_launch (s : State) : (s.takeMove).launch = s.launch := by
  unfold State.takeMove; split <;> rfl
@[simp] theorem State.takeMove_arg (s : State) : (s.takeMove).arg = s.arg := by
  unfold State.takeMove; split <;> rfl
@[simp] theorem State.takeMove_res (s : State) : (s.takeMove).res = s.res := by
  unfold State.takeMove; split <;> rfl
@[simp] theorem State.takeMove_busy (s : State) : (s.takeMove).busy = s.busy := by
  unfold State.takeMove; split <;> rfl
@[simp] theorem State.takeMove_fault (s : State) : (s.takeMove).fault = s.fault := by
  unfold State.takeMove; split <;> rfl
@[simp] theorem State.takeMove_seqState (s : State) : (s.takeMove).seqState = s.seqState := by
  unfold State.takeMove; split <;> rfl
@[simp] theorem State.takeMove_pstate (s : State) : (s.takeMove).pstate = s.pstate := by
  unfold State.takeMove; split <;> rfl
@[simp] theorem State.takeMove_hpc (s : State) : (s.takeMove).hpc = s.hpc := by
  unfold State.takeMove; split <;> rfl
@[simp] theorem State.takeMove_current (s : State) : (s.takeMove).current = s.current := by
  unfold State.takeMove; split <;> rfl
@[simp] theorem State.takeMove_scratch (s : State) : (s.takeMove).scratch = s.scratch := by
  unfold State.takeMove; split <;> rfl
@[simp] theorem State.takeMove_flashAcr (s : State) : (s.takeMove).flashAcr = s.flashAcr := by
  unfold State.takeMove; split <;> rfl
@[simp] theorem State.takeMove_clkCr (s : State) : (s.takeMove).clkCr = s.clkCr := by
  unfold State.takeMove; split <;> rfl
@[simp] theorem State.takeMove_clkPllcfg (s : State) : (s.takeMove).clkPllcfg = s.clkPllcfg := by
  unfold State.takeMove; split <;> rfl
@[simp] theorem State.takeMove_clkCfgr (s : State) : (s.takeMove).clkCfgr = s.clkCfgr := by
  unfold State.takeMove; split <;> rfl
@[simp] theorem State.takeMove_penr (s : State) : (s.takeMove).penr = s.penr := by
  unfold State.takeMove; split <;> rfl
@[simp] theorem State.takeMove_pwrCr (s : State) : (s.takeMove).pwrCr = s.pwrCr := by
  unfold State.takeMove; split <;> rfl
@[simp] theorem State.takeMove_scr (s : State) : (s.takeMove).scr = s.scr := by
  unfold State.takeMove; split <;> rfl
@[simp] theorem State.takeMove_tickCtrl (s : State) : (s.takeMove).tickCtrl = s.tickCtrl := by
  unfold State.takeMove; split <;> rfl
@[simp] theorem State.takeMove_tickReload (s : State) : (s.takeMove).tickReload = s.tickReload := by
  unfold State.takeMove; split <;> rfl
@[simp] theorem State.takeMove_tickCount (s : State) : (s.takeMove).tickCount = s.tickCount := by
  unfold State.takeMove; split <;> rfl
@[simp] theorem State.takeMove_tickPend (s : State) : (s.takeMove).tickPend = s.tickPend := by
  unfold State.takeMove; split <;> rfl
@[simp] theorem State.takeMove_uartStat (s : State) : (s.takeMove).uartStat = s.uartStat := by
  unfold State.takeMove; split <;> rfl
@[simp] theorem State.takeMove_rxData (s : State) : (s.takeMove).rxData = s.rxData := by
  unfold State.takeMove; split <;> rfl
@[simp] theorem State.takeMove_txData (s : State) : (s.takeMove).txData = s.txData := by
  unfold State.takeMove; split <;> rfl
@[simp] theorem State.takeMove_uartCtrl (s : State) : (s.takeMove).uartCtrl = s.uartCtrl := by
  unfold State.takeMove; split <;> rfl
@[simp] theorem State.takeMove_uartBaud (s : State) : (s.takeMove).uartBaud = s.uartBaud := by
  unfold State.takeMove; split <;> rfl
@[simp] theorem State.takeMove_mem (s : State) : (s.takeMove).mem = s.mem := by
  unfold State.takeMove; split <;> rfl
@[simp] theorem State.takeMove_chen (s : State) : (s.takeMove).chen = s.chen := by
  unfold State.takeMove; split <;> rfl
@[simp] theorem State.takeMove_imask (s : State) : (s.takeMove).imask = s.imask := by
  unfold State.takeMove; split <;> rfl
@[simp] theorem State.takeMove_lineIn (s : State) : (s.takeMove).lineIn = s.lineIn := by
  unfold State.takeMove; split <;> rfl
@[simp] theorem State.takeMove_lineOut (s : State) : (s.takeMove).lineOut = s.lineOut := by
  unfold State.takeMove; split <;> rfl

/-! ### The frequency checks -/

@[simp] theorem State.checkFrequencies_launch (s : State) : (s.checkFrequencies).launch = s.launch := by
  unfold State.checkFrequencies; repeat' split
  all_goals rfl
@[simp] theorem State.checkFrequencies_arg (s : State) : (s.checkFrequencies).arg = s.arg := by
  unfold State.checkFrequencies; repeat' split
  all_goals rfl
@[simp] theorem State.checkFrequencies_res (s : State) : (s.checkFrequencies).res = s.res := by
  unfold State.checkFrequencies; repeat' split
  all_goals rfl
@[simp] theorem State.checkFrequencies_busy (s : State) : (s.checkFrequencies).busy = s.busy := by
  unfold State.checkFrequencies; repeat' split
  all_goals rfl
@[simp] theorem State.checkFrequencies_seqState (s : State) : (s.checkFrequencies).seqState = s.seqState := by
  unfold State.checkFrequencies; repeat' split
  all_goals rfl
@[simp] theorem State.checkFrequencies_pstate (s : State) : (s.checkFrequencies).pstate = s.pstate := by
  unfold State.checkFrequencies; repeat' split
  all_goals rfl
@[simp] theorem State.checkFrequencies_hpc (s : State) : (s.checkFrequencies).hpc = s.hpc := by
  unfold State.checkFrequencies; repeat' split
  all_goals rfl
@[simp] theorem State.checkFrequencies_current (s : State) : (s.checkFrequencies).current = s.current := by
  unfold State.checkFrequencies; repeat' split
  all_goals rfl
@[simp] theorem State.checkFrequencies_scratch (s : State) : (s.checkFrequencies).scratch = s.scratch := by
  unfold State.checkFrequencies; repeat' split
  all_goals rfl
@[simp] theorem State.checkFrequencies_flashAcr (s : State) : (s.checkFrequencies).flashAcr = s.flashAcr := by
  unfold State.checkFrequencies; repeat' split
  all_goals rfl
@[simp] theorem State.checkFrequencies_clkCr (s : State) : (s.checkFrequencies).clkCr = s.clkCr := by
  unfold State.checkFrequencies; repeat' split
  all_goals rfl
@[simp] theorem State.checkFrequencies_clkPllcfg (s : State) : (s.checkFrequencies).clkPllcfg = s.clkPllcfg := by
  unfold State.checkFrequencies; repeat' split
  all_goals rfl
@[simp] theorem State.checkFrequencies_clkCfgr (s : State) : (s.checkFrequencies).clkCfgr = s.clkCfgr := by
  unfold State.checkFrequencies; repeat' split
  all_goals rfl
@[simp] theorem State.checkFrequencies_penr (s : State) : (s.checkFrequencies).penr = s.penr := by
  unfold State.checkFrequencies; repeat' split
  all_goals rfl
@[simp] theorem State.checkFrequencies_pwrCr (s : State) : (s.checkFrequencies).pwrCr = s.pwrCr := by
  unfold State.checkFrequencies; repeat' split
  all_goals rfl
@[simp] theorem State.checkFrequencies_scr (s : State) : (s.checkFrequencies).scr = s.scr := by
  unfold State.checkFrequencies; repeat' split
  all_goals rfl
@[simp] theorem State.checkFrequencies_tickCtrl (s : State) : (s.checkFrequencies).tickCtrl = s.tickCtrl := by
  unfold State.checkFrequencies; repeat' split
  all_goals rfl
@[simp] theorem State.checkFrequencies_tickReload (s : State) : (s.checkFrequencies).tickReload = s.tickReload := by
  unfold State.checkFrequencies; repeat' split
  all_goals rfl
@[simp] theorem State.checkFrequencies_tickCount (s : State) : (s.checkFrequencies).tickCount = s.tickCount := by
  unfold State.checkFrequencies; repeat' split
  all_goals rfl
@[simp] theorem State.checkFrequencies_tickPend (s : State) : (s.checkFrequencies).tickPend = s.tickPend := by
  unfold State.checkFrequencies; repeat' split
  all_goals rfl
@[simp] theorem State.checkFrequencies_uartStat (s : State) : (s.checkFrequencies).uartStat = s.uartStat := by
  unfold State.checkFrequencies; repeat' split
  all_goals rfl
@[simp] theorem State.checkFrequencies_rxData (s : State) : (s.checkFrequencies).rxData = s.rxData := by
  unfold State.checkFrequencies; repeat' split
  all_goals rfl
@[simp] theorem State.checkFrequencies_txData (s : State) : (s.checkFrequencies).txData = s.txData := by
  unfold State.checkFrequencies; repeat' split
  all_goals rfl
@[simp] theorem State.checkFrequencies_uartCtrl (s : State) : (s.checkFrequencies).uartCtrl = s.uartCtrl := by
  unfold State.checkFrequencies; repeat' split
  all_goals rfl
@[simp] theorem State.checkFrequencies_uartBaud (s : State) : (s.checkFrequencies).uartBaud = s.uartBaud := by
  unfold State.checkFrequencies; repeat' split
  all_goals rfl
@[simp] theorem State.checkFrequencies_mem (s : State) : (s.checkFrequencies).mem = s.mem := by
  unfold State.checkFrequencies; repeat' split
  all_goals rfl
@[simp] theorem State.checkFrequencies_chen (s : State) : (s.checkFrequencies).chen = s.chen := by
  unfold State.checkFrequencies; repeat' split
  all_goals rfl
@[simp] theorem State.checkFrequencies_imask (s : State) : (s.checkFrequencies).imask = s.imask := by
  unfold State.checkFrequencies; repeat' split
  all_goals rfl
@[simp] theorem State.checkFrequencies_lineIn (s : State) : (s.checkFrequencies).lineIn = s.lineIn := by
  unfold State.checkFrequencies; repeat' split
  all_goals rfl
@[simp] theorem State.checkFrequencies_lineOut (s : State) : (s.checkFrequencies).lineOut = s.lineOut := by
  unfold State.checkFrequencies; repeat' split
  all_goals rfl
@[simp] theorem State.checkFrequencies_schedule (s : State) : (s.checkFrequencies).schedule = s.schedule := by
  unfold State.checkFrequencies; repeat' split
  all_goals rfl
@[simp] theorem State.checkFrequencies_freeCount (s : State) : (s.checkFrequencies).freeCount = s.freeCount := by
  unfold State.checkFrequencies; repeat' split
  all_goals rfl

end Sys2Proof.Machine
end

