-- ==== Sys2Proof/Laws/Access.lean ====
section
/-! SUPPORT. What each shared operation can do, said once: commit, the access procedures, the ring slots and the
ring indices. -/

namespace Sys2Proof.Machine

/-! ### commit -/

@[simp] theorem commit_ok (s t : State) : commit s (.ok t) = .next t := rfl

@[simp] theorem commit_raise (s : State) (c : FaultCode) :
    commit s (.error (.raise c)) = .next (s.raise c) := rfl

@[simp] theorem commit_noSuchRingSlot (s : State) :
    commit s (.error .noSuchRingSlot) = .fault .noSuchRingSlot := rfl

/-- A committed step that gives a state gave it itself, or recorded a fault and nothing else. -/
theorem commit_eq_next {s t : State} {r : Except Stop State} :
    commit s r = .next t ↔ r = .ok t ∨ ∃ c, r = .error (.raise c) ∧ t = s.raise c := by
  cases r with
  | ok u => simp [commit]
  | error e =>
    cases e with
    | raise c => simp [commit, eq_comm]
    | noSuchRingSlot => simp [commit]

/-- A bind that gives a value came through its first half. -/
theorem bind_eq_ok {α β : Type} {x : Except Stop α} {f : α → Except Stop β} {b : β} :
    (x >>= f) = .ok b ↔ ∃ a, x = .ok a ∧ f a = .ok b := by
  cases x with
  | ok a => simp [bind, Except.bind]
  | error e => simp [bind, Except.bind]

/-- A bind that stops stopped in one of its halves. -/
theorem bind_eq_error {α β : Type} {x : Except Stop α} {f : α → Except Stop β} {e : Stop} :
    (x >>= f) = .error e ↔ x = .error e ∨ ∃ a, x = .ok a ∧ f a = .error e := by
  cases x with
  | ok a => simp [bind, Except.bind]
  | error e' => simp [bind, Except.bind]

@[simp] theorem ok_bind {α β : Type} (a : α) (f : α → Except Stop β) : ((Except.ok a) >>= f) = f a := rfl

@[simp] theorem error_bind {α β : Type} (e : Stop) (f : α → Except Stop β) :
    ((Except.error e : Except Stop α) >>= f) = .error e := rfl

@[simp] theorem pure_eq_ok {α : Type} (a : α) : (pure a : Except Stop α) = .ok a := rfl

theorem map_eq_ok {α β : Type} {x : Except Stop α} {f : α → β} {b : β} :
    x.map f = .ok b ↔ ∃ a, x = .ok a ∧ f a = b := by
  cases x <;> simp [Except.map]

/-! ### Registers -/

/-- A device write that succeeds passed every check, and stores. -/
theorem devWrite_eq_ok {s t : State} {r : Slot} {v : Word} :
    devWrite s r v = .ok t ↔ writeFault s r v = none ∧ t = s.regWrite r v := by
  unfold devWrite
  cases writeFault s r v <;> simp [eq_comm]

/-- A device write that stops raises its first failing check. -/
theorem devWrite_eq_error {s : State} {r : Slot} {v : Word} {e : Stop} :
    devWrite s r v = .error e ↔ ∃ c, writeFault s r v = some c ∧ e = .raise c := by
  unfold devWrite
  cases writeFault s r v <;> simp [eq_comm]

/-- A device read that succeeds has its clock on, and gives the register's value. -/
theorem devRead_eq_ok {s : State} {r : Slot} {p : Word × State} :
    devRead s r = .ok p ↔ (r.isUart && !s.uartEn) = false ∧ p = (s.regValue r, s.afterRead r) := by
  unfold devRead
  cases r.isUart && !s.uartEn <;> simp [eq_comm]

/-- A device read that stops raises PeripheralClockOff. -/
theorem devRead_eq_error {s : State} {r : Slot} {e : Stop} :
    devRead s r = .error e ↔ (r.isUart && !s.uartEn) = true ∧ e = .raise .peripheralClockOff := by
  unfold devRead
  cases r.isUart && !s.uartEn <;> simp [eq_comm]

/-- A HOST read that succeeds is a device read of a mapped slot that HOST may read. -/
theorem hostRead_eq_ok {s : State} {n : Nat} {p : Word × State} :
    hostRead s n = .ok p ↔
      ∃ r, Slot.ofNumber n = some r ∧ (s.chen && r == .uartData) = false ∧ devRead s r = .ok p := by
  unfold hostRead
  cases Slot.ofNumber n with
  | none => simp
  | some r =>
    cases h : (s.chen && r == .uartData) <;>
      simp only [h, Option.some.injEq, exists_eq_left', Bool.false_eq_true, if_true, if_false, true_and,
        reduceCtorEq, Bool.true_eq_false, false_and]

/-- A HOST write that succeeds is a device write of a mapped slot that HOST may write. -/
theorem hostWrite_eq_ok {s t : State} {n : Nat} {v : Word} :
    hostWrite s n v = .ok t ↔
      ∃ r, Slot.ofNumber n = some r ∧ r.notHosts = false ∧ (s.chen && r.isUart) = false ∧
        devWrite s r v = .ok t := by
  unfold hostWrite
  cases Slot.ofNumber n with
  | none => simp
  | some r =>
    cases h : r.notHosts <;> cases h' : (s.chen && r.isUart) <;>
      simp only [h, h', Option.some.injEq, exists_eq_left', Bool.false_eq_true, if_true, if_false, true_and,
        reduceCtorEq, Bool.true_eq_false, false_and]

/-! ### Ring slots -/

theorem writeRingSlot_eq_ok {s t : State} {k : RingId} {i : Nat} {b : Byte} :
    writeRingSlot s k i b = .ok t ↔ i < ringCap s.launch k ∧
      t = { s with mem := memSet s.mem (ringSlotAddr s.launch k i) b } := by
  unfold writeRingSlot
  split <;> simp_all [eq_comm]

theorem readRingSlot_eq_ok {s : State} {k : RingId} {i : Nat} {b : Byte} :
    readRingSlot s k i = .ok b ↔ i < ringCap s.launch k ∧
      b = memGet s.mem (ringSlotAddr s.launch k i) := by
  unfold readRingSlot
  split <;> simp_all [eq_comm]

/-! ### Ring regions -/

/-- In a well-formed launch the two rings do not meet. -/
theorem rings_apart {l : Launch} (h : l.wellFormed = true) :
    l.ringBaseRx + (8 + l.nrx) ≤ l.ringBaseTx ∨ l.ringBaseTx + (8 + l.ntx) ≤ l.ringBaseRx := by
  simp only [Launch.wellFormed, apart, Bool.and_eq_true, Bool.or_eq_true, decide_eq_true_eq] at h
  omega

/-- Every register of a well-formed launch is at a word-aligned address (R101, R103). -/
theorem address_aligned {l : Launch} (h : l.wellFormed = true) (r : Slot) : r.address l % 4 = 0 := by
  simp only [Launch.wellFormed, wordAligned, Bool.and_eq_true, decide_eq_true_eq] at h
  simp only [Slot.address]
  omega

/-- Both index words of a ring of a well-formed launch are at word-aligned addresses (R103). -/
theorem ring_index_aligned {l : Launch} (h : l.wellFormed = true) (k : RingId) :
    ringBase l k % 4 = 0 ∧ (ringBase l k + 4) % 4 = 0 := by
  simp only [Launch.wellFormed, wordAligned, Bool.and_eq_true, decide_eq_true_eq] at h
  cases k <;> simp only [ringBase] <;> omega

/-- A ring of a well-formed launch has at least two slots, and its indices fit 32 bits. -/
theorem ringCap_bounds {l : Launch} (h : l.wellFormed = true) (k : RingId) :
    2 ≤ ringCap l k ∧ ringCap l k < 2 ^ 32 := by
  simp only [Launch.wellFormed, apart, Bool.and_eq_true, Bool.or_eq_true, decide_eq_true_eq] at h
  cases k <;> simp only [ringCap] <;> omega

/-- An index written with nextIndex is in range and reads back as the number. -/
theorem nextIndex_toNat {l : Launch} (h : l.wellFormed = true) (k : RingId) (x : Word) :
    (BitVec.ofNat 32 (nextIndex l k x)).toNat = nextIndex l k x ∧ nextIndex l k x < ringCap l k := by
  have hb := ringCap_bounds h k
  have hlt : nextIndex l k x < ringCap l k := Nat.mod_lt _ (by omega)
  refine ⟨?_, hlt⟩
  rw [BitVec.toNat_ofNat, Nat.mod_eq_of_lt (by omega)]

end Sys2Proof.Machine
end

