-- ==== Sys2Proof/Laws/Decode.lean ====
section
/-! SUPPORT. Fields of a word given as a number. -/

namespace Sys2Proof

/-- The field of a word that is a number below 2^32, by division and remainder. -/
theorem wordField_ofNat (n lo len : Nat) (h : n < 2 ^ 32) :
    wordField (BitVec.ofNat 32 n) lo len = n / 2 ^ lo % 2 ^ len := by
  have h' : n % 4294967296 = n := Nat.mod_eq_of_lt h
  simp [wordField, Nat.shiftRight_eq_div_pow, h']

/-- A field fits its width. -/
theorem wordField_lt (w : Word) (lo len : Nat) : wordField w lo len < 2 ^ len := BitVec.isLt _

/-- No two rows of the opcode map select one word (R138): they differ in a bit that both masks cover. -/
theorem opcodeMap_rows_apart :
    opcodeMap.Pairwise fun r q => r.mtch &&& (r.mask &&& q.mask) ≠ q.mtch &&& (r.mask &&& q.mask) := by
  decide

end Sys2Proof
end

