-- ==== Sys2Proof/Laws/Fields.lean ====
section
/-! SUPPORT. Bits and fields of words: what withBit, withField and rwMerge leave and set, bit by bit. -/

namespace Sys2Proof.Machine

theorem getLsbD_oneShl (i j : Nat) : (1#32 <<< i).getLsbD j = (decide (j < 32) && decide (i = j)) := by
  rw [BitVec.getLsbD_shiftLeft]
  by_cases hij : i = j
  · subst hij; by_cases hi : i < 32 <;> simp [hi]
  · by_cases hlt : j < i
    · simp [hlt, hij]
    · have : j - i ≠ 0 := by omega
      simp [hij, this]

/-- The bits of `withBit`. -/
theorem getLsbD_withBit (w : Word) (i j : Nat) (b : Bool) (hi : i < 32) :
    (withBit w i b).getLsbD j = if j = i then b else w.getLsbD j := by
  unfold withBit
  by_cases hj : j < 32
  · cases b <;> by_cases h : i = j <;> simp [hj, h, Ne.symm] <;> omega
  · have h1 : w.getLsbD j = false := BitVec.getLsbD_of_ge _ _ (by omega)
    have h2 : j ≠ i := by omega
    have h3 : ∀ x : Word, x.getLsbD j = false := fun x => BitVec.getLsbD_of_ge _ _ (by omega)
    rw [h3]; simp [h2, h1]

/-- The bits of `rwMerge`. -/
theorem getLsbD_rwMerge (mask old v : Word) (j : Nat) :
    (rwMerge mask old v).getLsbD j = if mask.getLsbD j then v.getLsbD j else old.getLsbD j := by
  unfold rwMerge
  by_cases hj : j < 32
  · rw [BitVec.getLsbD_or, BitVec.getLsbD_and, BitVec.getLsbD_and, BitVec.getLsbD_not]
    cases h : mask.getLsbD j <;> simp only [hj, decide_true, Bool.not_true, Bool.not_false,
      Bool.and_true, Bool.and_false, Bool.or_false, Bool.false_or, if_true] <;> rfl
  · have h3 : ∀ x : Word, x.getLsbD j = false := fun x => BitVec.getLsbD_of_ge _ _ (by omega)
    simp only [h3]; simp

/-- The bits of `fieldOf`. -/
theorem getLsbD_fieldOf (w : Word) (lo len j : Nat) :
    (fieldOf w lo len).getLsbD j = (decide (j < len) && w.getLsbD (lo + j)) := by
  simp [fieldOf]

/-- The bits of `withField`. -/
theorem getLsbD_withField {len : Nat} (w : Word) (lo : Nat) (v : BitVec len) (j : Nat) (h : lo + len ≤ 32) :
    (withField w lo v).getLsbD j = if lo ≤ j ∧ j < lo + len then v.getLsbD (j - lo) else w.getLsbD j := by
  unfold withField
  by_cases hj : j < 32
  · by_cases h1 : j < lo
    · have : ¬ (lo ≤ j ∧ j < lo + len) := by omega
      simp [hj, h1, this]
    · by_cases h2 : j - lo < len
      · have h3 : lo ≤ j ∧ j < lo + len := by omega
        have h5 : ¬ (j < lo) := h1
        simp [hj, h2, h3, h5]
      · have h3 : ¬ (lo ≤ j ∧ j < lo + len) := by omega
        have h6 : v.getLsbD (j - lo) = false := BitVec.getLsbD_of_ge _ _ (by omega)
        simp [hj, h1, h2, h3, h6]
  · have h3 : ∀ x : Word, x.getLsbD j = false := fun x => BitVec.getLsbD_of_ge _ _ (by omega)
    have h4 : ¬ (lo ≤ j ∧ j < lo + len) := by omega
    simp [h3, h4]

/-- A field written reads back. -/
theorem fieldOf_withField_same {len : Nat} (w : Word) (lo : Nat) (v : BitVec len) (h : lo + len ≤ 32) :
    fieldOf (withField w lo v) lo len = v := by
  apply BitVec.eq_of_getLsbD_eq
  intro i hi
  have h1 : lo ≤ lo + i ∧ lo + i < lo + len := by omega
  have h2 : lo + i - lo = i := by omega
  rw [getLsbD_fieldOf, getLsbD_withField _ _ _ _ h, if_pos h1, h2]
  simp [hi]

/-- A field write leaves every field apart from it. -/
theorem fieldOf_withField_apart {len : Nat} (w : Word) (lo : Nat) (v : BitVec len) (lo' len' : Nat)
    (h : lo + len ≤ 32) (ha : lo + len ≤ lo' ∨ lo' + len' ≤ lo) :
    fieldOf (withField w lo v) lo' len' = fieldOf w lo' len' := by
  apply BitVec.eq_of_getLsbD_eq
  intro i hi
  have h1 : ¬ (lo ≤ lo' + i ∧ lo' + i < lo + len) := by omega
  rw [getLsbD_fieldOf, getLsbD_fieldOf, getLsbD_withField _ _ _ _ h, if_neg h1]

/-- SCRATCH takes every bit of a write (R37). -/
@[simp] theorem rwMerge_scratch (old v : Word) : rwMerge (Slot.rwMask .scratch) old v = v := by
  apply BitVec.eq_of_getLsbD_eq
  intro i hi
  have : (4294967295#32).getLsbD i = true := by
    have := BitVec.getLsbD_allOnes (v := 32) (i := i)
    simpa [hi] using this
  simp [getLsbD_rwMerge, Slot.rwMask, this]

/-- TICK_RELOAD takes every bit of a write (R46). -/
@[simp] theorem rwMerge_tickReload (old v : Word) : rwMerge (Slot.rwMask .tickReload) old v = v :=
  rwMerge_scratch old v

theorem and_allOnes32 (w : Word) : w &&& 4294967295#32 = w := by
  have := BitVec.and_allOnes (x := w)
  simpa using this

/-- SCRATCH reads its whole word (R37). -/
@[simp] theorem State.regValue_scratch (s : State) : s.regValue .scratch = s.scratch := by
  simp [State.regValue, State.stored, Slot.rwMask, Slot.roMask, Slot.hardwired, and_allOnes32]

/-- TICK_COUNT reads its whole word (R47). -/
@[simp] theorem State.regValue_tickCount (s : State) : s.regValue .tickCount = s.tickCount := by
  simp [State.regValue, State.stored, Slot.rwMask, Slot.roMask, Slot.hardwired, and_allOnes32]

end Sys2Proof.Machine
end

