-- ==== Sys2Proof/Laws/PerInstr.lean ====
section
/-! SUPPORT. A statement for all commands, said command by command: the opcode of a command's word is that of the
row of the opcode map with its mnemonic (spec/30_encoding.md R131, R138). -/

namespace Sys2Proof.Laws.OpcodeOfWord

/-- The word of a well-formed command has, in w[31:24], the opcode of the row of its mnemonic. -/
def Statement (i : Instr) : Prop :=
  i.wellFormed = true →
    ∃ r ∈ opcodeMap, r.mnemonic = i.mnemonic ∧ wordField (encode i) 24 8 = wordField r.mtch 24 8

/-- A word written as opcode and a rest below 2^24 has that opcode. -/
theorem opcode_of_sum (opc rest : Nat) (ho : opc < 256) (hr : rest < 2 ^ 24) :
    wordField (BitVec.ofNat 32 (opc * 2 ^ 24 + rest)) 24 8 = opc := by
  rw [wordField_ofNat _ _ _ (by omega)]
  omega

theorem rd (slot : Nat) : Statement (.rd slot) := by
  intro h
  have hs : slot < 256 := by simpa [Instr.wellFormed] using h
  exact ⟨⟨"RD", 0x01000000, 0xFF00FFFF⟩, by decide, rfl, opcode_of_sum 0x01 (slot * 2 ^ 16) (by decide) (by omega)⟩

theorem wr (slot : Nat) : Statement (.wr slot) := by
  intro h
  have hs : slot < 256 := by simpa [Instr.wellFormed] using h
  exact ⟨⟨"WR", 0x02000000, 0xFF00FFFF⟩, by decide, rfl, opcode_of_sum 0x02 (slot * 2 ^ 16) (by decide) (by omega)⟩

/-- The opcode of a Format B word. -/
theorem opcode_encodeB (opc slot bit : Nat) (v : Bool) (ho : opc < 256) (hs : slot < 256) (hb : bit < 32) :
    wordField (encodeB opc slot bit v) 24 8 = opc := by
  have h : opc * 2 ^ 24 + slot * 2 ^ 16 + bit * 2 ^ 8 + v.toNat
      = opc * 2 ^ 24 + (slot * 2 ^ 16 + bit * 2 ^ 8 + v.toNat) := by omega
  have hv : v.toNat < 2 := Bool.toNat_lt v
  rw [encodeB, h]
  exact opcode_of_sum opc _ ho (by omega)

theorem rdbit (slot bit : Nat) : Statement (.rdbit slot bit) := by
  intro h
  have hs : slot < 256 ∧ bit < 32 := by simpa [Instr.wellFormed] using h
  exact ⟨⟨"RDBIT", 0x03000000, 0xFF00E0FF⟩, by decide, rfl, opcode_encodeB 0x03 slot bit false (by decide) hs.1 hs.2⟩

theorem wrbit (slot bit : Nat) (v : Bool) : Statement (.wrbit slot bit v) := by
  intro h
  have hs : slot < 256 ∧ bit < 32 := by simpa [Instr.wellFormed] using h
  exact ⟨⟨"WRBIT", 0x04000000, 0xFF00E0FE⟩, by decide, rfl, opcode_encodeB 0x04 slot bit v (by decide) hs.1 hs.2⟩

theorem poll (slot bit : Nat) (v : Bool) : Statement (.poll slot bit v) := by
  intro h
  have hs : slot < 256 ∧ bit < 32 := by simpa [Instr.wellFormed] using h
  exact ⟨⟨"POLL", 0x05000000, 0xFF00E0FE⟩, by decide, rfl, opcode_encodeB 0x05 slot bit v (by decide) hs.1 hs.2⟩

/-- The opcode of a Format Q word. -/
theorem opcode_encodeQ (opc : Nat) (ring : RingId) (byte : Byte) (ho : opc < 256) :
    wordField (encodeQ opc ring byte) 24 8 = opc := by
  have h : opc * 2 ^ 24 + ring.number * 2 ^ 16 + byte.toNat
      = opc * 2 ^ 24 + (ring.number * 2 ^ 16 + byte.toNat) := by omega
  have hk : ring.number < 2 := by cases ring <;> decide
  have hb := byte.isLt
  rw [encodeQ, h]
  exact opcode_of_sum opc _ ho (by omega)

theorem tryput (ring : RingId) (byte : Byte) : Statement (.tryput ring byte) := fun _ =>
  ⟨⟨"TRYPUT", 0x10000000, 0xFFFEFF00⟩, by decide, rfl, opcode_encodeQ 0x10 ring byte (by decide)⟩

theorem tryget (ring : RingId) : Statement (.tryget ring) := fun _ =>
  ⟨⟨"TRYGET", 0x11000000, 0xFFFEFFFF⟩, by decide, rfl, opcode_encodeQ 0x11 ring 0 (by decide)⟩

theorem isfull (ring : RingId) : Statement (.isfull ring) := fun _ =>
  ⟨⟨"ISFULL", 0x12000000, 0xFFFEFFFF⟩, by decide, rfl, opcode_encodeQ 0x12 ring 0 (by decide)⟩

theorem isempty (ring : RingId) : Statement (.isempty ring) := fun _ =>
  ⟨⟨"ISEMPTY", 0x13000000, 0xFFFEFFFF⟩, by decide, rfl, opcode_encodeQ 0x13 ring 0 (by decide)⟩

theorem count (ring : RingId) : Statement (.count ring) := fun _ =>
  ⟨⟨"COUNT", 0x14000000, 0xFFFEFFFF⟩, by decide, rfl, opcode_encodeQ 0x14 ring 0 (by decide)⟩

theorem uinit : Statement .uinit := fun _ => ⟨⟨"UINIT", 0x20000000, 0xFFFFFFFF⟩, by decide, rfl, by decide⟩

theorem chinit : Statement .chinit := fun _ => ⟨⟨"CHINIT", 0x21000000, 0xFFFFFFFF⟩, by decide, rfl, by decide⟩

theorem pputc (byte : Byte) : Statement (.pputc byte) := fun _ =>
  ⟨⟨"PPUTC", 0x22000000, 0xFFFFFF00⟩, by decide, rfl, opcode_of_sum 0x22 byte.toNat (by decide)
    (Nat.lt_trans byte.isLt (by decide))⟩

theorem pgetc : Statement .pgetc := fun _ => ⟨⟨"PGETC", 0x23000000, 0xFFFFFFFF⟩, by decide, rfl, by decide⟩

theorem putc (byte : Byte) : Statement (.putc byte) := fun _ =>
  ⟨⟨"PUTC", 0x24000000, 0xFFFFFF00⟩, by decide, rfl, opcode_of_sum 0x24 byte.toNat (by decide)
    (Nat.lt_trans byte.isLt (by decide))⟩

theorem getc : Statement .getc := fun _ => ⟨⟨"GETC", 0x25000000, 0xFFFFFFFF⟩, by decide, rfl, by decide⟩

theorem bringup : Statement .bringup := fun _ => ⟨⟨"BRINGUP", 0x30000000, 0xFFFFFFFF⟩, by decide, rfl, by decide⟩

theorem pdown (mode : PowerMode) : Statement (.pdown mode) := fun _ =>
  ⟨⟨"PDOWN", 0x31000000, 0xFFFFFFFE⟩, by decide, rfl, by cases mode <;> decide⟩

theorem irqoff : Statement .irqoff := fun _ => ⟨⟨"IRQOFF", 0x40000000, 0xFFFFFFFF⟩, by decide, rfl, by decide⟩

theorem irqon : Statement .irqon := fun _ => ⟨⟨"IRQON", 0x41000000, 0xFFFFFFFF⟩, by decide, rfl, by decide⟩

theorem rdtick : Statement .rdtick := fun _ => ⟨⟨"RDTICK", 0x42000000, 0xFFFFFFFF⟩, by decide, rfl, by decide⟩

end Sys2Proof.Laws.OpcodeOfWord
end

