-- ==== Sys2Proof/Laws/Run.lean ====
section
/-! SUPPORT. The run along a list of moves (spec/70_reset_and_hazards.md R360): where it ends, and that it goes no
further. -/

namespace Sys2Proof.Machine

/-- A run ends in a final state. -/
theorem runToEnd_final {ms : List Move} {s t : State} (h : runToEnd ms s = .ended t) : finalState t = true := by
  induction ms generalizing s with
  | nil =>
    simp only [runToEnd] at h
    split at h
    · cases h; assumption
    · cases h
  | cons m ms ih =>
    simp only [runToEnd] at h
    split at h
    · cases h; assumption
    · split at h
      · exact ih h
      · cases h
      · cases h

/-- From a final state no further move is taken. -/
theorem runToEnd_of_final {ms : List Move} {s : State} (h : finalState s = true) : runToEnd ms s = .ended s := by
  cases ms <;> simp [runToEnd, h]

/-- An infinite run reaches no final state, so it ends nowhere. -/
theorem not_endsAt_of_isRun {moves : Nat → Move} {states : Nat → State} (h : IsRun moves states) (n : Nat) :
    ¬ EndsAt moves states n := by
  intro he
  have := (h n).1
  rw [he.2] at this
  cases this

end Sys2Proof.Machine
end

