-- ==== Sys2Proof/Laws/Step.lean ====
section
/-! SUPPORT. What one step can do, said once, and how a property of states is shown of every step. -/

namespace Sys2Proof.Machine

/-- A step that gives a state began without a fault, and is the scheduled move. -/
theorem step_eq_next {s t : State} :
    step s = .next t ↔ s.fault = none ∧ moveStep s.nextMove s.takeMove = .next t := by
  unfold step
  cases s.fault <;> simp

/-- A faulted block is halted (R313). -/
theorem step_of_fault {s : State} {c : FaultCode} (h : s.fault = some c) : step s = .fault (.halted c) := by
  simp [step, h]

/-- A move that gives a state was not enabled and left it, or performed its step and the frequency checks. -/
theorem moveStep_eq_next {m : Move} {s t : State} :
    moveStep m s = .next t ↔ (enabled m s = false ∧ t = s) ∨
      (enabled m s = true ∧ ∃ u, perform m s = .next u ∧ t = u.checkFrequencies) := by
  unfold moveStep
  cases enabled m s
  · simp [eq_comm]
  · cases perform m s <;> simp [checked, eq_comm]

/-- An enabled move finds no fault recorded. -/
theorem enabled_fault {m : Move} {s : State} (h : enabled m s = true) : s.fault = none := by
  cases m <;> simp_all [enabled, State.running]

/-- A property that holds of a state whatever its fault record, and that taking a move from the schedule and every
enabled move's step keep, is kept by every step. -/
theorem step_keeps {P : State → Prop} (hfault : ∀ s c, P s → P (s.raise c))
    (htake : ∀ s, P s → P s.takeMove)
    (hmove : ∀ m s t, P s → enabled m s = true → perform m s = .next t → P t)
    {s t : State} (hs : P s) (h : step s = .next t) : P t := by
  obtain ⟨-, h⟩ := step_eq_next.mp h
  rcases moveStep_eq_next.mp h with ⟨-, rfl⟩ | ⟨hen, u, hu, rfl⟩
  · exact htake s hs
  · have hPu := hmove _ _ _ (htake s hs) hen hu
    unfold State.checkFrequencies
    repeat' split
    · exact hPu
    · exact hfault _ _ hPu
    · exact hfault _ _ hPu
    · exact hPu

end Sys2Proof.Machine
end

