-- ==== Sys2Proof/Tests/Slice0.lean ====
section
/-! SUPPORT. Tests: ill-formed terms that the checks refuse, words written out from the encodings of
spec/30_encoding.md, single steps whose results are the vectors of spec/95_test_vectors.md, and witnesses that the
hypotheses of every statement can be met. -/

namespace Sys2Proof.Tests

open Sys2Proof Sys2Proof.Machine

/-! ### Ill-formed terms -/

theorem test_illformed_slot :
    (Instr.rd 256).wellFormed = false ∧ (Instr.wr 256).wellFormed = false ∧
    (Instr.rdbit 256 0).wellFormed = false ∧ (Instr.wrbit 256 0 true).wellFormed = false ∧
    (Instr.poll 256 0 true).wellFormed = false := by decide

theorem test_illformed_bit :
    (Instr.rdbit 0 32).wellFormed = false ∧ (Instr.wrbit 0 32 true).wellFormed = false ∧
    (Instr.poll 0 32 true).wellFormed = false := by decide

theorem test_example_variants_wellformed :
    Variant.ex.wellFormed = true ∧ Variant.ex2.wellFormed = true ∧ Variant.ex2b.wellFormed = true ∧
    Launch.ex.wellFormed = true := by decide

/-- K6: PLL_M = 0. -/
theorem test_illformed_dividers : { Variant.ex with pllM := 0 }.dividersOk = false := by decide

theorem test_illformed_target : { Variant.ex with fTarget := 72000001 }.targetOk = false := by decide

/-- K4: LATENCY = 0. -/
theorem test_illformed_flash : { Variant.ex with latency := 0 }.flashOk = false := by decide

theorem test_illformed_codes :
    { Variant.ex with prescFinal := { hpre := 10, ppre1 := 1, ppre2 := 0 } }.codesOk = false ∧
    { Variant.ex with prescFinal := { hpre := 0, ppre1 := 5, ppre2 := 0 } }.codesOk = false ∧
    { Variant.ex2 with prescInter := some { hpre := 0, ppre1 := 0, ppre2 := 5 } }.codesOk = false := by decide

theorem test_illformed_order : { Variant.ex with finalAfterSwitch := true }.orderOk = false := by decide

/-- K5: PRESC_FINAL = (0, 0, 0) puts PCLK1 at 72 MHz. -/
theorem test_illformed_buses : { Variant.ex with prescFinal := Prescaler.one }.busesOk = false := by decide

theorem test_illformed_frequency :
    { Variant.ex with fIrc := 0 }.wellFormed = false ∧ { Variant.ex with fXosc := 0 }.wellFormed = false ∧
    { Variant.ex with fTarget := 0 }.wellFormed = false := by decide

theorem test_illformed_launch :
    { Launch.ex with nrx := 1 }.wellFormed = false ∧ { Launch.ex with ntx := 1 }.wellFormed = false ∧
    { Launch.ex with ringBaseRx := 2 ^ 32 - 8 }.wellFormed = false ∧
    { Launch.ex with ringBaseTx := 2 ^ 32 - 8 }.wellFormed = false ∧
    { Launch.ex with regBase := 0x40000002 }.wellFormed = false ∧
    { Launch.ex with ringBaseRx := 0x20000002 }.wellFormed = false ∧
    { Launch.ex with ringBaseTx := 0x20001001 }.wellFormed = false ∧
    { Launch.ex with regBase := 2 ^ 32 - 4 }.wellFormed = false ∧
    { Launch.ex with ringBaseTx := Launch.ex.ringBaseRx + 12 }.wellFormed = false ∧
    { Launch.ex with ringBaseRx := Launch.ex.regBase + 1020 }.wellFormed = false ∧
    { Launch.ex with ringBaseTx := Launch.ex.regBase + 1020 }.wellFormed = false := by decide

/-! ### Words written out from the encodings: w[31:24] ++ w[23:16] ++ w[15:8] ++ w[7:0] -/

theorem test_decode_register_commands :
    decode (0b00000001#8 ++ 0b00000100#8 ++ 0#8 ++ 0#8) = .ok (.rd 0x04) ∧
    decode (0b00000010#8 ++ 0b00010011#8 ++ 0#8 ++ 0#8) = .ok (.wr 0x13) ∧
    decode (0b00000011#8 ++ 0b00000000#8 ++ 0b00011111#8 ++ 0#8) = .ok (.rdbit 0x00 31) ∧
    decode (0b00000100#8 ++ 0b00000101#8 ++ 0b00000010#8 ++ 0b00000001#8) = .ok (.wrbit 0x05 2 true) ∧
    decode (0b00000101#8 ++ 0b00010000#8 ++ 0b00000001#8 ++ 0b00000001#8) = .ok (.poll 0x10 1 true) := by
  refine ⟨rfl, rfl, rfl, rfl, rfl⟩

theorem test_decode_ring_commands :
    decode (0b00010000#8 ++ 0b00000001#8 ++ 0#8 ++ 0b01000001#8) = .ok (.tryput .tx 0x41#8) ∧
    decode (0b00010001#8 ++ 0b00000001#8 ++ 0#8 ++ 0#8) = .ok (.tryget .tx) ∧
    decode (0b00010010#8 ++ 0b00000000#8 ++ 0#8 ++ 0#8) = .ok (.isfull .rx) ∧
    decode (0b00010011#8 ++ 0b00000001#8 ++ 0#8 ++ 0#8) = .ok (.isempty .tx) ∧
    decode (0b00010100#8 ++ 0b00000000#8 ++ 0#8 ++ 0#8) = .ok (.count .rx) := by
  refine ⟨rfl, rfl, rfl, rfl, rfl⟩

theorem test_decode_serial_commands :
    decode (0b00100000#8 ++ 0#8 ++ 0#8 ++ 0#8) = .ok .uinit ∧
    decode (0b00100001#8 ++ 0#8 ++ 0#8 ++ 0#8) = .ok .chinit ∧
    decode (0b00100010#8 ++ 0#8 ++ 0#8 ++ 0b01000001#8) = .ok (.pputc 0x41#8) ∧
    decode (0b00100011#8 ++ 0#8 ++ 0#8 ++ 0#8) = .ok .pgetc ∧
    decode (0b00100100#8 ++ 0#8 ++ 0#8 ++ 0b01001000#8) = .ok (.putc 0x48#8) ∧
    decode (0b00100101#8 ++ 0#8 ++ 0#8 ++ 0#8) = .ok .getc := by
  refine ⟨rfl, rfl, rfl, rfl, rfl, rfl⟩

theorem test_decode_system_commands :
    decode (0b00110000#8 ++ 0#8 ++ 0#8 ++ 0#8) = .ok .bringup ∧
    decode (0b00110001#8 ++ 0#8 ++ 0#8 ++ 0b00000001#8) = .ok (.pdown .standby) ∧
    decode (0b00110001#8 ++ 0#8 ++ 0#8 ++ 0#8) = .ok (.pdown .stop) ∧
    decode (0b01000000#8 ++ 0#8 ++ 0#8 ++ 0#8) = .ok .irqoff ∧
    decode (0b01000001#8 ++ 0#8 ++ 0#8 ++ 0#8) = .ok .irqon ∧
    decode (0b01000010#8 ++ 0#8 ++ 0#8 ++ 0#8) = .ok .rdtick := by
  refine ⟨rfl, rfl, rfl, rfl, rfl, rfl⟩

/-- The illegal words of section 3. -/
theorem test_decode_illegal_words :
    decode 0xFFFFFFFF#32 = .error .unlistedOpcode ∧ decode 0x06000000#32 = .error .unlistedOpcode ∧
    decode 0x01000001#32 = .error .nonzeroFixedBit ∧ decode 0x03001F01#32 = .error .nonzeroFixedBit ∧
    decode 0x0400E000#32 = .error .nonzeroFixedBit ∧ decode 0x04000002#32 = .error .nonzeroFixedBit ∧
    decode 0x10020000#32 = .error .nonzeroFixedBit ∧ decode 0x11000041#32 = .error .nonzeroFixedBit ∧
    decode 0x20000001#32 = .error .nonzeroFixedBit ∧ decode 0x22010041#32 = .error .nonzeroFixedBit ∧
    decode 0x31000002#32 = .error .nonzeroFixedBit := by
  refine ⟨rfl, rfl, rfl, rfl, rfl, rfl, rfl, rfl, rfl, rfl, rfl⟩

/-- R146: SETBIT and CLRBIT are WRBIT, WAITSET and WAITCLR are POLL, CRIT_BEGIN and CRIT_END are IRQOFF and IRQON. -/
theorem test_pseudo_instructions :
    encode (Instr.setbit 0x05 2) = 0x04050201#32 ∧ encode (Instr.clrbit 0x00 17) = 0x04001100#32 ∧
    encode (Instr.waitset 0x10 1) = 0x05100101#32 ∧ encode (Instr.waitclr 0x02 1) = 0x05020100#32 ∧
    encode Instr.critBegin = 0x40000000#32 ∧ encode Instr.critEnd = 0x41000000#32 ∧
    wrfieldValue 0x12345678 13 4 0xA0 = 0x12344A08 := by decide

/-! ### States and helpers -/

/-- Command `i` latched in `s` with ARG `a`, at micro-step `ms`, and HOST scheduled. -/
def latched (s : State) (i : Instr) (ms : MicroStep) (a : Word := 0) : State :=
  { s with busy := true, current := { Current.start (encode i) a with ms := ms }, schedule := [.host] }

/-- A part of the state a step gives. -/
def after {α : Type} (r : Result) (f : State → α) : Option α :=
  match r with
  | .next t => some (f t)
  | _ => none

/-- The end of K1 under variant EX. -/
def bup : State :=
  { State.reset with
    flashAcr := 2, clkCr := 0x00030303, clkPllcfg := 0x01010241, clkCfgr := 0x0000010A, tickReload := 0x00011940,
    tickCtrl := 3 }

/-- After UINIT with ARG 0x271. -/
def uart : State := { bup with penr := 1, uartBaud := 0x271, uartCtrl := 1 }

/-- After CHINIT with ARG 0x271. -/
def chan : State := { uart with uartCtrl := 3, chen := true }

/-- Ring RX with N = 4 holding `W`, `R` and three bytes. -/
def ring4 (w r : Word) (b0 b1 b2 : Byte) : State :=
  let l := { Launch.ex with nrx := 4 }
  let m := memWrite4 (memWrite4 [] l.ringBaseRx w) (l.ringBaseRx + 4) r
  let m := memSet (memSet (memSet m (l.ringBaseRx + 8) b0) (l.ringBaseRx + 9) b1) (l.ringBaseRx + 10) b2
  { State.reset with launch := l, mem := m }

/-- Channel state with ring TX (N = 8) at indices `w`, `r`, and one byte in slot 0. -/
def tx8 (s : State) (w r : Word) (b : Byte) : State :=
  let m := memWrite4 (memWrite4 s.mem s.launch.ringBaseTx w) (s.launch.ringBaseTx + 4) r
  { s with mem := memSet m (s.launch.ringBaseTx + 8) b }

theorem test_reset_memory_canonical : Memory.wf State.reset.mem = true := rfl

/-! ### Register access vectors (section 4) -/

/-- A1. -/
theorem test_rd_clk_cr : after (exec (.rd 0x02) (latched State.reset (.rd 0x02) .ms1)) (·.res) = some 3 := by decide

/-- A4. -/
theorem test_rd_uart_stat_clock_off :
    after (exec (.rd 0x10) (latched State.reset (.rd 0x10) .ms1)) (·.statusWord) = some 0x00000603 := by decide

/-- A6; A12 and A14: before the clock is switched, whatever the value. -/
theorem test_wr_at_reset :
    after (exec (.wr 0x00) (latched State.reset (.wr 0x00) .ms1 0xDEADBEEF)) (·.scratch) = some 0xDEADBEEF ∧
    after (exec (.wr 0x05) (latched State.reset (.wr 0x05) .ms1 1)) (·.statusWord) = some 0x00000503 ∧
    after (exec (.wr 0x05) (latched State.reset (.wr 0x05) .ms1 0x00010000)) (·.fault)
      = some (some .peripheralBeforeSwitched) := by decide

/-- A17 and A18. R49: a write of UART_STAT's own bits changes nothing; R35, R167: a 1 in a reserved bit faults
(A20's 0xFF has five, log entry 9). -/
theorem test_wr_uart :
    after (exec (.wr 0x11) (latched { bup with penr := 1 } (.wr 0x11) .ms1 0x41)) (fun t => (t.txData, t.txe))
      = some (0x41, false) ∧
    after (exec (.wr 0x11) (latched { bup with penr := 1, uartStat := 0 } (.wr 0x11) .ms1 0x42)) (·.fault)
      = some (some .txWhileBusy) ∧
    after (exec (.wr 0x10) (latched uart (.wr 0x10) .ms1 0x7)) (fun t => (t.uartStat, t.fault)) = some (2, none) ∧
    after (exec (.wr 0x10) (latched uart (.wr 0x10) .ms1 0xFF)) (fun t => (t.uartStat, t.fault))
      = some (2, some .reservedBitWrite) := by decide

/-- A8 and A9. -/
theorem test_rdbit :
    after (exec (.rdbit 0 4) (latched { State.reset with scratch := 0xDEADBEEE } (.rdbit 0 4) .ms1)) (·.res)
      = some 0 ∧
    after (exec (.rdbit 0 31) (latched { State.reset with scratch := 0xDEADBEEE } (.rdbit 0 31) .ms1)) (·.res)
      = some 1 := by decide

/-- A24: ms1 reads, ms2 finds the owner. -/
theorem test_wrbit_clk_cr :
    after (exec (.wrbit 2 8 true) (latched State.reset (.wrbit 2 8 true) .ms1)) (·.current.t) = some 3 ∧
    after (exec (.wrbit 2 8 true) (latched State.reset (.wrbit 2 8 true) .ms2)) (fun t => (t.fault, t.xoscOn))
      = some (some .ownershipViolation, false) := by decide

/-- X1, third row: the write of the changed copy. R163: WRBIT of a reserved bit faults with v = 1 and is accepted with
v = 0. -/
theorem test_wrbit_ms2 :
    after (exec (.wrbit 0 17 false)
        { latched State.reset (.wrbit 0 17 false) .ms2 with
          current := { Current.start 0x04001100 0 with ms := .ms2, t := 0xFFFFFFFF } }) (·.scratch)
      = some 0xFFFDFFFF ∧
    after (exec (.wrbit 0x10 3 true) (latched uart (.wrbit 0x10 3 true) .ms2)) (·.fault)
      = some (some .reservedBitWrite) ∧
    after (exec (.wrbit 0x10 3 false) (latched uart (.wrbit 0x10 3 false) .ms2)) (·.fault) = some none := by decide

/-- A21 and A22. -/
theorem test_poll :
    after (exec (.poll 2 1 true) (latched State.reset (.poll 2 1 true) .ms1)) (·.busy) = some false ∧
    after (exec (.poll 2 1 false) (latched State.reset (.poll 2 1 false) .ms1)) (·.busy) = some true := by decide

/-! ### Ring buffer vectors (section 6) -/

/-- Q7: full, and BUF[3] is not written. -/
theorem test_tryput_full :
    after (exec (.tryput .rx 0x44) (latched (ring4 3 0 0x11 0x22 0x33) (.tryput .rx 0x44) .ms2))
      (fun t => (t.res, t.busy, memGet t.mem (t.launch.ringBaseRx + 11))) = some (0, false, 0) := by decide

/-- Q11: W wraps from 3 to 0. -/
theorem test_tryput_wraps :
    after (exec (.tryput .rx 0x44) (latched (ring4 3 1 0x11 0x22 0x33) (.tryput .rx 0x44) .ms3))
      (fun t => (t.res, t.ringW .rx, t.ringR .rx)) = some (1, 0, 1) := by decide

/-- Q10: the oldest byte, then R. -/
theorem test_tryget :
    after (exec (.tryget .rx)
        { latched (ring4 3 0 0x11 0x22 0x33) (.tryget .rx) .ms2 with
          current := { Current.start 0x11000000 0 with ms := .ms2, ww := 3 } }) (·.current.b) = some 0x11 ∧
    after (exec (.tryget .rx)
        { latched (ring4 3 0 0x11 0x22 0x33) (.tryget .rx) .ms3 with
          current := { Current.start 0x11000000 0 with ms := .ms3, b := 0x11 } })
      (fun t => (t.res, t.ringR .rx)) = some (0x111, 1) := by decide

/-- Q18. -/
theorem test_tryget_tx_channel :
    after (exec (.tryget .tx) (latched chan (.tryget .tx) .ms1)) (·.fault)
      = some (some .ownershipViolation) := by decide

/-- Q1, Q2, Q8 and Q12: the queries' second micro-step. -/
theorem test_ring_queries :
    after (exec (.isempty .rx) (latched (ring4 0 0 0 0 0) (.isempty .rx) .ms2)) (·.res) = some 1 ∧
    after (exec (.count .rx) (latched (ring4 0 0 0 0 0) (.count .rx) .ms2)) (·.res) = some 0 ∧
    after (exec (.isfull .rx)
        { latched (ring4 3 0 1 2 3) (.isfull .rx) .ms2 with
          current := { Current.start 0x12000000 0 with ms := .ms2, cnt := 3 } }) (·.res) = some 1 ∧
    after (exec (.count .rx) (latched (ring4 0 1 1 2 3) (.count .rx) .ms2)) (·.res) = some 3 := by decide

/-! ### Serial vectors (sections 7 and 8) -/

/-- U1 and U3. -/
theorem test_uinit_faults :
    after (exec .uinit (latched State.reset .uinit .ms2 0x271)) (·.statusWord) = some 0x00000503 ∧
    after (exec .uinit (latched { bup with penr := 1 } .uinit .ms3 0x10271)) (·.statusWord)
      = some 0x00000703 := by decide

/-- U2: the last micro-step. -/
theorem test_uinit_ends :
    after (exec .uinit (latched { bup with penr := 1, uartBaud := 0x271 } .uinit .ms4 0x271))
      (fun t => (t.uartCtrl, t.uartStat, t.busy)) = some (1, 2, false) := by decide

/-- C3, and CHINIT's last two micro-steps. -/
theorem test_chinit :
    after (exec .chinit (latched chan .chinit .ms1 0x271)) (·.fault) = some (some .ownershipViolation) ∧
    after (exec .chinit (latched uart .chinit .ms8)) (·.uartCtrl) = some 3 ∧
    after (exec .chinit (latched uart .chinit .ms9)) (fun t => (t.chen, t.busy)) = some (true, false) := by decide

/-- U4 and U5: ms2 loads TXDATA; ms1 spins while TXE = 0. -/
theorem test_pputc :
    after (exec (.pputc 0x41) (latched uart (.pputc 0x41) .ms2)) (fun t => (t.txData, t.txe)) = some (0x41, false) ∧
    after (exec (.pputc 0x4B) (latched { uart with uartStat := 0 } (.pputc 0x4B) .ms1))
      (fun t => (t.current.ms, t.busy)) = some (.ms1, true) := by decide

/-- U7: ms2 after the overrun. -/
theorem test_pgetc :
    after (exec .pgetc (latched { uart with uartStat := 7, rxData := 0x31 } .pgetc .ms2))
      (fun t => (t.res, t.uartStat)) = some (0x31, 2) := by decide

/-- C1. -/
theorem test_putc_without_channel :
    after (exec (.putc 0x41) (latched bup (.putc 0x41) .ms1)) (·.statusWord) = some 0x00000E03 := by decide

/-- C7: the slot at ms2, TXIE at ms5. -/
theorem test_putc :
    after (exec (.putc 0x41) (latched chan (.putc 0x41) .ms2))
      (fun t => memGet t.mem (t.launch.ringBaseTx + 8)) = some 0x41 ∧
    after (exec (.putc 0x41)
        { latched chan (.putc 0x41) .ms5 with
          current := { Current.start 0x24000041 0 with ms := .ms5, t := 3 } })
      (fun t => (t.uartCtrl, t.busy)) = some (7, false) := by decide

/-- C2, and C8's last micro-step. -/
theorem test_getc :
    after (exec .getc (latched bup .getc .ms1)) (·.fault) = some (some .channelOff) ∧
    after (exec .getc
        { latched chan .getc .ms3 with current := { Current.start 0x25000000 0 with ms := .ms3, b := 0x31 } })
      (fun t => (t.res, t.ringR .rx)) = some (0x31, 1) := by decide

/-- H3: the transmit rule sends the oldest byte. -/
theorem test_handler_transmits :
    after (perform .irqe (tx8 { chan with uartCtrl := 7 } 1 0 0x41))
      (fun t => (t.txData, t.txe, t.ringR .tx)) = some (0x41, false, 1) := by decide

/-- H1 and H4. -/
theorem test_handler_receives_or_disables :
    after (perform .irqe { chan with uartStat := 1, rxData := 0x31 })
      (fun t => (memGet t.mem (t.launch.ringBaseRx + 8), t.ringW .rx, t.rxne)) = some (0x31, 1, false) ∧
    after (perform .irqe { chan with uartCtrl := 7 }) (·.uartCtrl) = some 3 := by decide

/-! ### Sequencer vectors (section 5) and tick vectors (section 9) -/

/-- K1, steps 1 and 2. -/
theorem test_bringup_starts :
    after (exec .bringup (latched State.reset .bringup .ms1)) (·.statusWord) = some 0x00010001 ∧
    after (perform .cseq { latched State.reset .bringup .ms2 with seqState := .s1Flash })
      (fun t => (t.flashAcr, t.seqState)) = some (2, .s2XoscOn) := by decide

/-- K4, the CLKSW step with LATENCY = 0: the effect is kept and the fault recorded. -/
theorem test_flash_wait_states :
    after (moveStep .clksw
        { latched bup .bringup .ms2 with flashAcr := 0, clkCfgr := 0x102, seqState := .s5SwitchWait })
      (fun t => (t.clkCfgr, t.statusWord)) = some (0x10A, 0x000A0C03) := by decide

/-- K16, and K11's last step. -/
theorem test_pdown :
    after (perform .cseq { latched State.reset (.pdown .stop) .ms2 with seqState := .p1PwrEn }) (·.statusWord)
      = some 0x00100503 ∧
    after (perform .cseq { latched bup (.pdown .stop) .ms2 with seqState := .p4Wfe, scr := 1, penr := 2 })
      (·.statusWord) = some 0x01130001 := by decide

/-- K13. -/
theorem test_wake_reverts :
    after (perform .wake
        { bup with pstate := .stop, seqState := .p4Wfe, launch := { Launch.ex with stopPolicy := .revertToInternal } })
      (fun t => (t.clkCr, t.clkCfgr, t.clkPllcfg, t.clockState))
      = some (0x00000003, 0x00000100, 0x01010241, .reset) := by decide

/-- T4 and T7: the mask commands. -/
theorem test_mask_commands :
    after (exec .irqoff (latched bup .irqoff .ms1)) (·.imask) = some true ∧
    after (exec .irqon (latched { chan with imask := true, uartStat := 3 } .irqon .ms1)) (·.irqPending)
      = some true := by decide

/-- T1 and T5. -/
theorem test_ticks :
    after (exec .rdtick (latched State.reset .rdtick .ms1)) (·.res) = some 0 ∧
    after (perform .irqe { bup with tickCount := 0xFFFFFFFF, tickPend := true }) (fun t => (t.tickCount, t.tickPend))
      = some (0, false) := by decide

/-- P1 and P2. -/
theorem test_port_faults :
    after (step { latched State.reset .uinit .ms1 with schedule := [.portCmd 0xFFFFFFFF] }) (·.fault)
      = some (some .commandWhileBusy) ∧
    after (step { State.reset with schedule := [.portCmd 0x06000000] }) (·.statusWord) = some 0x00000102 := by decide

/-- R360: the run ends in the first final state, and the moves after it are not taken; R361: the observation is read
there, with every slot of BUF, written or not. -/
theorem test_run_ends_at_first_final_state :
    observeRun [.portArg 7] State.reset = some (observation State.reset) ∧
    (observation (tx8 chan 1 0 0x41)).tx.slots = [0x41, 0, 0, 0, 0, 0, 0, 0] ∧
    (observation (tx8 chan 1 0 0x41)).tx.queued = [0x41] := by decide

/-- A command placed by withFetchWord runs in the very next step from reset. -/
theorem test_withFetchWord : after (step (State.reset.withFetchWord 32 0x01020000)) (·.res) = some 3 := by decide

/-! ### Witnesses: each meets the hypotheses of the statement it is named after, clause by clause -/

theorem witness_EncodeThenDecodeGivesTheCommand : (Instr.wrbit 255 31 true).wellFormed = true := by decide

theorem witness_DecodedWordEncodesBack : decode 0x04FF1F01#32 = .ok (.wrbit 255 31 true) := rfl

/-- A launch whose program is one legal and one illegal word. -/
def twoWords : Launch := { Launch.ex with program := [(0x02000000, 0xDEADBEEF), (0x06000000, 0)] }

theorem witness_StepRunsTheLatchedCommand :
    let s := latched State.reset (.rd 2) .ms1
    let q := { latched State.reset .bringup .ms2 with seqState := .s1Flash }
    let p := { State.reset with launch := twoWords, schedule := [.host] }
    let d := { bup with clkCr := 0x00010303, schedule := [.pll] }
    (s.fault = none ∧ s.pstate = .run ∧ s.seqState = .idle ∧ s.busy = true ∧ s.schedule = .host :: [] ∧
      decode s.current.word = .ok (.rd 2)) ∧
    (q.fault = none ∧ q.schedule = .host :: [] ∧ enabled .host q = false) ∧
    (q.pstate = .run ∧ q.seqState ≠ .idle ∧ { q with schedule := [.cseq] }.schedule = .cseq :: []) ∧
    (p.fault = none ∧ p.schedule = .host :: [] ∧ p.pstate = .run ∧ p.busy = false ∧
      p.hpc < p.launch.program.length) ∧
    (d.fault = none ∧ d.schedule = .pll :: [] ∧ enabled .pll d = true) ∧
    (State.reset.fault = none ∧ State.reset.schedule = []) :=
  ⟨⟨rfl, rfl, rfl, rfl, rfl, rfl⟩, by decide, by decide, by decide, by decide, rfl, rfl⟩

theorem witness_IssueLatchesOneCommand :
    let s := { State.reset with launch := twoWords }
    (s.busy = false ∧ s.launch.program[s.hpc]? = some (0x02000000, 0xDEADBEEF)) ∧
    (s.busy = false ∧ { s with hpc := 1 }.launch.program[{ s with hpc := 1 }.hpc]? = some (0x06000000, 0)) ∧
    (latched s .uinit .ms1).busy = true ∧ s.fault = none := by decide

theorem witness_FaultHaltsTheBlock :
    State.reset.fault = none ∧ (State.reset.raise .channelOff).fault = some .channelOff := by decide

theorem witness_AccessFaultsChangeNothingElse :
    ∃ t, (latched State.reset (.rd 0x10) .ms1).fault = none ∧
      perform .host (latched State.reset (.rd 0x10) .ms1) = .next t ∧ t.fault = some .peripheralClockOff :=
  ⟨_, rfl, rfl, rfl⟩

theorem witness_RdAndRdbitGiveTheValue :
    let s := latched uart (.rd 0x11) .ms1
    s.current.ms = .ms1 ∧ Slot.ofNumber 0x11 = some .uartData ∧
    (Slot.uartData = .uartData → s.chen = false) ∧ (Slot.uartData.isUart = true → s.uartEn = true) := by decide

/-- One read that fails each check: slot 0x0B, UART_DATA with a channel, UART_STAT without its clock. -/
theorem witness_ReadsFaultInOrder :
    Slot.ofNumber 0x0B = none ∧ (Slot.ofNumber 0x11 = some .uartData ∧ chan.chen = true) ∧
    (Slot.ofNumber 0x10 = some .uartStat ∧ Slot.uartStat.isUart = true ∧ bup.uartEn = false) ∧
    (latched bup (.poll 0x10 1 true) .ms1).current.ms = .ms1 := by decide

theorem witness_WrStoresTheArgument :
    let s := latched uart (.wr 0x11) .ms1 0xFF
    s.current.ms = .ms1 ∧ Slot.ofNumber 0x11 = some .uartData ∧ Slot.uartData.notHosts = false ∧ s.chen = false ∧
    s.uartEn = true ∧ s.clockState = .switched ∧ s.current.arg &&& Slot.uartData.reservedMask = 0 ∧
    s.txe = true := by decide

/-- One write that fails each check, in the order of the statement. -/
theorem witness_WrFaultsInOrder :
    Slot.ofNumber 0x14 = none ∧ Slot.flashAcr.notHosts = true ∧
    (chan.chen = true ∧ Slot.uartBaud.isUart = true) ∧
    (Slot.penr.isPeripheral = true ∧ State.reset.clockState ≠ .switched) ∧
    (bup.clockState = .switched ∧ bup.uartEn = false ∧ bup.chen = false) ∧
    (latched uart (.wr 0x11) .ms1 0x100).current.arg &&& Slot.uartData.reservedMask ≠ 0 ∧
    { uart with uartStat := 0 }.txe = false := by decide

theorem witness_RegisterWritesTakeTheRwBits :
    Slot.clkCfgr ≠ .uartData ∧ Slot.clkCfgr ≠ .clkCr ∧ Slot.penr ≠ Slot.uartData ∧
    ¬(Slot.uartData = .uartData ∧ Slot.penr = .uartStat) := by decide

theorem witness_ReadsShowNoReservedBits :
    Slot.uartStat ≠ .uartData ∧ fieldOf State.reset.clkCfgr 2 2 = 0 ∧
    fieldOf { State.reset with clkCfgr := 0x4 }.clkCfgr 2 2 = 1 ∧ fieldOf bup.clkCfgr 2 2 = 2 := by decide

theorem witness_ClkCrWriteEdges :
    0x00010100#32 &&& Slot.reservedMask .clkCr = 0 ∧ (0x00010100#32).getLsbD 16 = true ∧
    State.reset.pllOn = false ∧ State.reset.pllM = 0 := by decide

theorem witness_WrbitReadsThenWrites :
    (Slot.ofNumber 0x11 = some .uartData ∧ (latched uart (.wrbit 0x11 7 true) .ms1).current.ms = .ms1 ∧
      uart.chen = false ∧ uart.uartEn = true) ∧
    ((latched uart (.wrbit 0x11 7 true) .ms2).current.ms = .ms2 ∧ Slot.uartData.notHosts = false ∧
      uart.clockState = .switched ∧ uart.txe = true ∧
      ((latched uart (.wrbit 0x11 7 true) .ms2).current.t ||| (1#32 <<< 7))
        &&& Slot.uartData.reservedMask = 0) ∧
    (Slot.ofNumber 0x02 = some .clkCr ∧ Slot.clkCr.notHosts = true) ∧
    (chan.chen = true ∧ Slot.uartBaud.isUart = true) ∧
    (Slot.penr.isPeripheral = true ∧ State.reset.clockState ≠ .switched ∧ Slot.penr.notHosts = false) ∧
    (bup.clockState = .switched ∧ bup.uartEn = false ∧ bup.chen = false) ∧
    ((latched uart (.wrbit 0x11 8 true) .ms2).current.t ||| (1#32 <<< 8)) &&& Slot.uartData.reservedMask ≠ 0 ∧
    { uart with uartStat := 0 }.txe = false := by decide

theorem witness_PollSpinsUntilTheBit :
    let s := latched uart (.poll 0x11 7 true) .ms1
    (s.current.ms = .ms1 ∧ Slot.ofNumber 0x11 = some .uartData ∧ s.chen = false ∧ s.uartEn = true) ∧
    ({ s with rxData := 0x80 }.regValue .uartData).getLsbD 7 = true ∧
    (s.regValue .uartData).getLsbD 7 ≠ true := by decide

theorem witness_ScratchBitRoundTrip :
    let s := { latched State.reset (.wrbit 0 31 true) .ms2 with scratch := 0 }
    (31 < 32 ∧ s.current.ms = .ms2 ∧ s.current.t = s.scratch) ∧
    (latched s (.wrbit 0 31 true) .ms1).current.ms = .ms1 ∧
    (latched s (.rdbit 0 31) .ms1).current.ms = .ms1 ∧
    (Move.tick ≠ .host ∧ s.pstate ≠ .standby ∧ ∃ w, perform .tick s = .next w) :=
  ⟨by decide, rfl, rfl, by decide, by decide, _, rfl⟩

theorem witness_HostNeverWritesOthersRegisters :
    let s := latched (tx8 chan 1 0 0x41) (.putc 0x42) .ms3
    (∃ t, exec (.wr 0x11) (latched uart (.wr 0x11) .ms1 0x41) = .next t) ∧
    (s.chen = true ∧ s.busy = true ∧ decode s.current.word = .ok (.putc 0x42) ∧ driverExcluded s = true ∧
      ringsInRange s = true ∧ ∃ t, exec (.putc 0x42) s = .next t) :=
  ⟨⟨_, rfl⟩, rfl, rfl, rfl, by decide, by decide, _, rfl⟩

theorem witness_TryputMicroSteps :
    let s := ring4 3 0 1 2 3
    ((latched s (.tryput .rx 5) .ms1).current.ms = .ms1 ∧ s.chen = false) ∧
    chan.chen = true ∧
    (((latched s (.tryput .rx 5) .ms2).ringW .rx).toNat + 1) % ringCap s.launch .rx
      = (latched s (.tryput .rx 5) .ms2).current.rr.toNat ∧
    ((((ring4 2 0 1 2 3).ringW .rx).toNat + 1) % ringCap s.launch .rx ≠ 0 ∧
      ((ring4 2 0 1 2 3).ringW .rx).toNat < ringCap s.launch .rx) ∧
    (latched s (.tryput .rx 5) .ms3).current.ms = .ms3 := by decide

theorem witness_TrygetMicroSteps :
    let s := latched (ring4 0 3 1 2 3) (.tryget .rx) .ms2
    ((latched s (.tryget .rx) .ms1).current.ms = .ms1 ∧ s.chen = false) ∧ chan.chen = true ∧
    (latched (ring4 0 0 1 2 3) (.tryget .rx) .ms2).current.ww = (ring4 0 0 1 2 3).ringR .rx ∧
    (s.current.ms = .ms2 ∧ s.current.ww ≠ s.ringR .rx ∧ (s.ringR .rx).toNat < ringCap s.launch .rx) ∧
    (latched s (.tryget .rx) .ms3).current.ms = .ms3 := by decide

theorem witness_RingQueriesAnswer :
    (latched State.reset (.isfull .rx) .ms1).current.ms = .ms1 ∧
    (latched State.reset (.count .tx) .ms2).current.ms = .ms2 := by decide

theorem witness_RingCountIsBounded :
    (ring4 3 0 1 2 3).launch.wellFormed = true ∧ ringInRange (ring4 3 0 1 2 3) .rx = true := by decide

theorem witness_CommandsStoreOnlyTheirBytes :
    let s := latched chan (.putc 0x41) .ms2
    (∃ t, exec (.putc 0x41) s = .next t) ∧ storedBytes (.putc 0x41) s = some (s.launch.ringBaseTx + 8, 1) ∧
    (s.launch.ringBaseTx + 7 < s.launch.ringBaseTx + 8 ∧
      s.launch.ringBaseTx + 8 + 1 ≤ s.launch.ringBaseTx + 9) :=
  ⟨⟨_, rfl⟩, by decide, by decide⟩

/-- HOST publishes the last free slot of ring RX. -/
theorem witness_RingIndicesStayInRange :
    let s := latched (ring4 3 1 1 2 3) (.tryput .rx 5) .ms3
    Memory.wf s.mem = true ∧ ringsInRange s = true ∧ ∃ t, step s = .next t :=
  ⟨by decide, by decide, _, rfl⟩

/-- TRYPUT RX of byte 7 at its ms2 and, with 7 in the slot at W, at its ms3; R moved on after its snapshot. -/
def putUnderWay (ms : MicroStep) : State :=
  let s := latched (ring4 2 1 1 2 7) (.tryput .rx 7) ms
  { s with current := { s.current with rr := 0 } }

/-- GETC at its ms2 and, with the oldest byte taken, at its ms3; W moved on after its snapshot. -/
def getUnderWay (ms : MicroStep) : State :=
  let s := latched { ring4 3 1 1 2 7 with chen := true } .getc ms
  { s with current := { s.current with ww := 2, b := 2 } }

theorem witness_PutAndGetAreFifo :
    let s := ring4 2 0 1 2 3
    let f := ring4 3 0 1 2 3
    (Memory.wf s.mem = true ∧ ringsInRange s = true ∧
      ringFull s.launch .rx (s.ringW .rx) (s.ringR .rx) = false ∧ ∃ t, putByte s .rx 5 = .ok t) ∧
    (Memory.wf f.mem = true ∧ ringsInRange f = true ∧
      ringFull f.launch .rx (f.ringW .rx) (f.ringR .rx) = true ∧ f.ringW .rx ≠ f.ringR .rx) :=
  ⟨⟨by decide, by decide, by decide, _, rfl⟩, by decide⟩

/-- The clause on commands: a put and a get at ms2 and at ms3. -/
theorem witness_PutAndGetAreFifo_commands :
    (∀ ms ∈ [MicroStep.ms2, .ms3], let s := putUnderWay ms
      Memory.wf s.mem = true ∧ ringsInRange s = true ∧ snapshotsSound s = true ∧ s.busy = true ∧
        decode s.current.word = .ok (.tryput .rx 7) ∧
        (after (exec (.tryput .rx 7) s) (fun _ => ())).isSome = true) ∧
    (∀ ms ∈ [MicroStep.ms2, .ms3], let s := getUnderWay ms
      Memory.wf s.mem = true ∧ ringsInRange s = true ∧ snapshotsSound s = true ∧ s.busy = true ∧
        decode s.current.word = .ok .getc ∧ (after (exec .getc s) (fun _ => ())).isSome = true) := by
  decide

theorem witness_UinitMicroSteps :
    (bup.chen = false ∧ (latched bup .uinit .ms1).current.ms = .ms1) ∧
    (bup.clockState = .switched ∧ (latched bup .uinit .ms2).current.t &&& Slot.reservedMask .penr = 0) ∧
    State.reset.clockState ≠ .switched ∧
    (uart.clockState = .switched ∧ uart.uartEn = true ∧
      fieldOf (latched uart .uinit .ms3 0xFFFF).current.arg 16 16 = 0) ∧
    fieldOf (latched uart .uinit .ms3 0x10000).current.arg 16 16 ≠ 0 ∧
    (latched uart .uinit .ms4).current.ms = .ms4 := by decide

theorem witness_ChinitMicroSteps :
    (bup.chen = false ∧ (latched bup .chinit .ms1).current.ms = .ms1) ∧
    (bup.clockState = .switched ∧ (latched bup .chinit .ms2).current.t &&& Slot.reservedMask .penr = 0) ∧
    (uart.clockState = .switched ∧ uart.uartEn = true ∧
      fieldOf (latched uart .chinit .ms3 0xFFFF).current.arg 16 16 = 0) ∧
    State.reset.clockState ≠ .switched ∧ fieldOf (latched uart .chinit .ms3 0x10000).current.arg 16 16 ≠ 0 ∧
    (latched uart .chinit .ms4).current.ms = .ms4 ∧ (latched uart .chinit .ms5).current.ms = .ms5 ∧
    (latched uart .chinit .ms6).current.ms = .ms6 ∧ (latched uart .chinit .ms7).current.ms = .ms7 ∧
    (latched uart .chinit .ms8).current.ms = .ms8 ∧ (latched uart .chinit .ms9).current.ms = .ms9 := by decide

theorem witness_PputcMicroSteps :
    ((latched uart (.pputc 1) .ms1).current.ms = .ms1 ∧ uart.chen = false ∧ uart.uartEn = true ∧ uart.txe = true) ∧
    { uart with uartStat := 0 }.txe = false ∧ (bup.chen = false ∧ bup.uartEn = false) ∧
    ((latched uart (.pputc 1) .ms2).current.ms = .ms2 ∧ uart.clockState = .switched) ∧
    State.reset.clockState ≠ .switched ∧ (bup.clockState = .switched ∧ bup.uartEn = false) := by decide

theorem witness_PgetcMicroSteps :
    ((latched uart .pgetc .ms1).current.ms = .ms1 ∧ uart.chen = false ∧ uart.uartEn = true ∧
      { uart with uartStat := 1 }.rxne = true) ∧
    uart.rxne = false ∧ (latched uart .pgetc .ms2).current.ms = .ms2 ∧
    (bup.chen = false ∧ bup.uartEn = false) := by decide

theorem witness_PutcMicroSteps :
    ((latched chan (.putc 1) .ms1).current.ms = .ms1 ∧ chan.chen = true) ∧
    (((tx8 chan 7 0 1).ringW .tx).toNat + 1) % chan.launch.ntx
      = (latched (tx8 chan 7 0 1) (.putc 1) .ms2).current.rr.toNat ∧
    ((((tx8 chan 6 0 1).ringW .tx).toNat + 1) % chan.launch.ntx ≠ 0 ∧
      ((tx8 chan 6 0 1).ringW .tx).toNat < chan.launch.ntx) ∧
    (latched chan (.putc 1) .ms3).current.ms = .ms3 ∧ chan.uartEn = true ∧
    (chan.clockState = .switched ∧
      (latched chan (.putc 1) .ms5).current.t &&& Slot.reservedMask .uartCtrl = 0) ∧
    State.reset.clockState ≠ .switched ∧ (bup.clockState = .switched ∧ bup.uartEn = false) := by decide

theorem witness_GetcMicroSteps :
    let s := { chan with mem := memWrite4 [] chan.launch.ringBaseRx 7 }
    ((latched s .getc .ms1).current.ms = .ms1 ∧ s.chen = true) ∧
    (latched chan .getc .ms2).current.ww = chan.ringR .rx ∧
    ((7#32 : Word) ≠ s.ringR .rx ∧ (s.ringR .rx).toNat < s.launch.nrx) ∧
    (latched s .getc .ms3).current.ms = .ms3 := by decide

theorem witness_DriverAndChannelExclude :
    ((latched chan .uinit .ms1).current.ms = .ms1 ∧ chan.chen = true) ∧
    ((latched uart .getc .ms1).current.ms = .ms1 ∧ uart.chen = false) := by decide

theorem witness_ReceiveRuleMovesOrDrops :
    let s := { chan with uartStat := 3 }
    let f := { s with mem := memWrite4 [] chan.launch.ringBaseRx 7 }
    chan.uartEn = true ∧ { s with penr := 0 }.uartEn = false ∧ (chan.rxne && chan.rxie) = false ∧ (s.rxne && s.rxie) = true ∧
    ringFull s.launch .rx (s.ringW .rx) (s.ringR .rx) = false ∧
    ringFull f.launch .rx (f.ringW .rx) (f.ringR .rx) = true := by decide

theorem witness_TransmitRuleSendsOrDisables :
    let s := tx8 { chan with uartCtrl := 7 } 1 0 0x41
    (chan.txe && chan.txie) = false ∧
    ((s.txe && s.txie) = true ∧ s.clockState = .switched ∧ s.uartEn = true ∧ s.ringW .tx ≠ s.ringR .tx ∧
      (s.ringR .tx).toNat < s.launch.ntx) ∧
    { chan with uartCtrl := 7 }.ringW .tx = { chan with uartCtrl := 7 }.ringR .tx ∧
    { s with clkCfgr := 0 }.clockState ≠ .switched ∧ { s with penr := 0 }.uartEn = false := by decide

/-- HOST inside PUTC at ms5, with the byte queued and TXIE still 0; and CHINIT's ms9, which creates the channel. -/
theorem witness_EnableFollowsTheQueue :
    let s := latched (tx8 chan 1 0 0x41) (.putc 0x41) .ms5
    let c := latched uart .chinit .ms9
    (Memory.wf s.mem = true ∧ ringsInRange s = true ∧ driverExcluded s = true ∧ chinitEmptiesTx s = true ∧
      (s.chen = true → ∀ b, decode s.current.word ≠ .ok (.tryput .tx b)) ∧ enableFollowsQueue s = true ∧
      ∃ t, step s = .next t) ∧
    (Memory.wf c.mem = true ∧ ringsInRange c = true ∧ driverExcluded c = true ∧ chinitEmptiesTx c = true ∧
      c.chen = false ∧ enableFollowsQueue c = true ∧ ∃ t, step c = .next t ∧ t.chen = true) :=
  ⟨⟨by decide, by decide, rfl, rfl,
    fun _ _ h => by rw [show decode (latched (tx8 chan 1 0 0x41) (.putc 0x41) .ms5).current.word
      = .ok (.putc 0x41) from rfl] at h; simp at h,
    rfl, _, rfl⟩, rfl, by decide, rfl, by decide, rfl, rfl, _, rfl, rfl⟩

/-- CHINIT's ms9 sets CHEN; an IRQE step takes a byte between a PUTC's ms1 and its ms2. -/
theorem witness_ChannelExclusionIsKept :
    let s := { latched (tx8 { chan with uartCtrl := 7 } 1 0 0x41) (.putc 0x42) .ms2 with schedule := [.irqe] }
    (driverExcluded (latched uart .chinit .ms9) = true ∧ ∃ t, step (latched uart .chinit .ms9) = .next t) ∧
    (driverExcluded s = true ∧ Memory.wf s.mem = true ∧ ringsInRange s = true ∧ snapshotsSound s = true ∧
      ∃ t, step s = .next t ∧ t.mem ≠ s.mem) :=
  ⟨⟨rfl, _, rfl⟩, rfl, by decide, by decide, by decide, _, rfl, by decide⟩

theorem witness_ChannelIsNeverDestroyed :
    (∃ t, step (latched uart .chinit .ms9) = .next t ∧ uart.chen = false ∧ t.chen = true) ∧
    (∃ t, step { chan with pstate := .standby, seqState := .p4Wfe, schedule := [.wake] } = .next t ∧
      chan.chen = true ∧ t.chen = false) ∧
    (latched chan .chinit .ms1).current.ms = .ms1 :=
  ⟨⟨_, rfl, rfl, rfl⟩, ⟨_, rfl, rfl, rfl⟩, rfl⟩

theorem witness_BringupAndPdownMicroSteps :
    (latched bup .bringup .ms1).current.ms = .ms1 ∧
    ((latched bup .bringup .ms2).current.ms = .ms2 ∧ bup.seqState = .idle ∧ bup.pstate = .run) ∧
    { latched bup .bringup .ms2 with seqState := .s1Flash }.seqState ≠ .idle ∧
    { latched bup (.pdown .stop) .ms2 with pstate := .stop }.pstate ≠ .run := by decide

/-- The registers at a step of K1. -/
def atStep (q : SeqState) (cr cfg : Word) : State :=
  { latched State.reset .bringup .ms2 with seqState := q, clkCr := cr, clkPllcfg := cfg }

theorem witness_SequencerFlashAndOscillator :
    (atStep .s1Flash 3 0).seqState = .s1Flash ∧ (atStep .s2XoscOn 3 0).seqState = .s2XoscOn ∧
    (atStep .s2XoscWait 0x303 0).xoscRdy = true ∧ (atStep .s2XoscWait 0x103 0).xoscRdy = false := by decide

theorem witness_SequencerPll :
    (atStep .s3PllCfg 0x303 0).pllOn = false ∧
    ((atStep .s3PllCfg 0x10303 0x01010242).pllOn = true ∧
      (atStep .s3PllCfg 0x10303 0x01010242).clkPllcfg &&& Slot.rwMask .clkPllcfg ≠ pllCfgValue Variant.ex) ∧
    (atStep .s3PllCfg 0x10303 0x01010241).clkPllcfg = pllCfgValue Variant.ex ∧
    ((atStep .s3PllOn 0x303 0x01010241).pllM ≠ 0 ∧ (atStep .s3PllOn 0x303 0x01010241).pllN ≠ 0 ∧
      (atStep .s3PllOn 0x303 0x01010241).pllP ≠ 0) ∧
    ((atStep .s3PllOn 0x303 0x01010240).pllOn = false ∧ (atStep .s3PllOn 0x303 0x01010240).pllM = 0) ∧
    (atStep .s3PllWait 0x10303 0x01010241).pllRdy = false ∧
    (atStep .s3PllWait 0x30303 0x01010241).pllRdy = true := by decide

theorem witness_SequencerPrescalerAndSwitch :
    (Variant.ex2.prescInter = some { hpre := 0, ppre1 := 2, ppre2 := 1 } ∧
      (Prescaler.mk 0 2 1).legal = true ∧ State.reset.sw ≠ 3) ∧
    (Prescaler.mk 9 4 4).legal = true ∧ (Prescaler.mk 10 4 4).legal = false ∧
    Variant.ex.prescFinal.legal = true ∧ clockCodesLegal State.reset = true ∧
    { State.reset with clkCfgr := 0x102 }.sws ≠ 2 ∧ bup.sws = 2 := by decide

theorem witness_SequencerTickAndPowerDown :
    Variant.ex.fTarget / 1000 < 2 ^ 32 ∧ bup.clockState = .switched ∧ State.reset.clockState ≠ .switched := by decide

theorem witness_WellFormedBringupNeverFaults :
    let s := atStep .s3PllOn 0x303 0x01010241
    s.launch.variant.wellFormed = true ∧ clockCodesLegal s = true ∧
    s.seqState ∉ [SeqState.p1PwrEn, .p2Mode, .p3Deep, .p4Wfe] ∧
    pllConfigHeld s = true := by decide

/-- The start of K1 after its first step, of a second BRINGUP under the two-step variant EX2 (X4), and of one after a
wake that reverts the clock (K13). -/
theorem witness_BringupReachesTheTarget :
    let s := atStep .s1Flash 3 0
    let l := { Launch.ex with variant := Variant.ex2 }
    let u := { latched bup .bringup .ms2 with launch := l, seqState := .s1Flash }
    let r := { u with clkCr := 3, clkCfgr := 0x100 }
    (s.fault = none ∧ s.pstate = .run ∧ s.busy = true ∧ s.current.ms = .ms2 ∧ s.seqState = .s1Flash ∧
      decode s.current.word = .ok .bringup ∧ s.flashAcr = 0 ∧ s.clkCr = 3 ∧ s.clkPllcfg = 0 ∧ s.clkCfgr = 0 ∧
      s.launch.variant.wellFormed = true ∧ s.launch.variant.fTarget / 1000 < 2 ^ 32 ∧
      s.launch.xtalPresent = true ∧ s.launch.pllLocks = true) ∧
    (u.fault = none ∧ u.busy = true ∧ u.current.ms = .ms2 ∧ u.launch.variant.wellFormed = true ∧
      u.latency = u.launch.variant.latency ∧ u.prescaler = u.launch.variant.prescFinal ∧
      u.regValue .clkPllcfg = pllCfgValue u.launch.variant ∧ u.regValue .clkCr = 0x00030303 ∧ u.sw = 2 ∧ u.sws = 2) ∧
    (r.prescaler = r.launch.variant.prescFinal ∧ r.regValue .clkCr = 3 ∧ r.sw = 0 ∧ r.sws = 0) :=
  ⟨⟨rfl, rfl, rfl, rfl, rfl, rfl, rfl, rfl, rfl, rfl, by decide, by decide, rfl, rfl⟩, by decide, by decide⟩

theorem witness_DevicesStepWhenEnabled :
    (bup.pstate = .run ∧ bup.fault = none ∧ bup.sw ≠ 3) ∧
    ({ uart with lineIn := [0x5A] }.lineIn = 0x5A :: [] ∧ { uart with lineIn := [0x5A] }.rxne = false) ∧
    { uart with lineIn := [0x5A], uartStat := 1 }.rxne = true := by decide

theorem witness_SleepAndWakeFromStop :
    let s := { bup with pstate := .stop, seqState := .p4Wfe }
    let r := { s with launch := { Launch.ex with stopPolicy := .revertToInternal } }
    (s.fault = none ∧ s.pstate ≠ .run ∧ s.pstate = .stop ∧ s.launch.stopPolicy = .retain) ∧
    (r.fault = none ∧ r.pstate = .stop ∧ r.launch.stopPolicy = .revertToInternal) := by decide

theorem witness_WakeFromStandbyResets :
    { bup with pstate := .standby, seqState := .p4Wfe }.pstate = .standby := rfl

theorem witness_TickAndInterruptDelivery :
    (bup.pstate = .run ∧ bup.fault = none) ∧
    ({ bup with tickPend := true }.tickPend = true ∧ bup.tickInt = true) ∧
    (chan.tickPend && chan.tickInt) = false := by decide

theorem witness_HandlersLeaveHostAlone :
    let s := tx8 { chan with uartCtrl := 7 } 1 0 0x41
    (∃ t, perform .irqe s = .next t) ∧ ringsInRange s = true ∧ handlerStoredBytes s ≠ [] ∧
    (∀ p ∈ handlerStoredBytes s, s.launch.ringBaseTx + 8 < p.1 ∨ p.1 + p.2 ≤ s.launch.ringBaseTx + 8) :=
  ⟨⟨_, rfl⟩, by decide, by decide, by decide⟩

theorem witness_TicksCountHandlerRuns :
    ∃ t, step { bup with tickPend := true, schedule := [.irqe] } = .next t ∧ t.tickCount = 1 := ⟨_, rfl, rfl⟩

theorem witness_MaskAndTickCommands : (latched bup .rdtick .ms1).current.ms = .ms1 := rfl

/-- K4's CLKSW step: the limits hold before it and not after it. -/
theorem witness_FrequencyLimitsHold :
    let s := { latched bup .bringup .ms2 with
      flashAcr := 0, clkCfgr := 0x102, seqState := .s5SwitchWait, schedule := [.clksw] }
    s.fault = none ∧ (State.reset.raise .channelOff).fault ≠ none ∧ frequenciesOk s = true ∧ (∃ t, step s = .next t ∧ frequenciesOk t = false) ∧
    (∃ t, step { s with flashAcr := 2 } = .next t ∧ t.fault = none) :=
  ⟨rfl, by decide, by decide, ⟨_, rfl, by decide⟩, _, rfl, by decide⟩

theorem witness_MemoryStaysCanonical :
    let s := latched chan (.putc 0x41) .ms2
    Memory.wf s.mem = true ∧ ∃ t, step s = .next t := ⟨rfl, _, rfl⟩

theorem witness_ClockCodesStayLegal :
    let s := { bup with clkCfgr := 0x102, schedule := [.clksw] }
    (∃ t, step s = .next t) ∧ clockCodesLegal s = true ∧ reservedBitsClear s = true ∧ pllConfigHeld s = true :=
  ⟨⟨_, rfl⟩, by decide⟩

theorem witness_CommandStateStaysValid :
    let s := { latched bup .bringup .ms2 with seqState := .s6TickEn, schedule := [.cseq] }
    commandValid s = true ∧ sequencerValid s = true ∧ ∃ t, step s = .next t := ⟨rfl, rfl, _, rfl⟩

theorem witness_NoStopWithoutARecordedFault :
    let s := latched chan .getc .ms3
    s.fault = none ∧ commandValid s = true ∧ ringsInRange s = true := ⟨rfl, rfl, by decide⟩

theorem witness_LineIsAppendOnly :
    ∃ t, step { uart with uartStat := 0, schedule := [.utx] } = .next t := ⟨_, rfl⟩

end Sys2Proof.Tests
end

section
/-! SUPPORT. The bits of a register that nothing changes (R35, R39), the registers by slot, and what a register write
does to the fields of CLK_CFGR, CLK_CR and CLK_PLLCFG. -/

namespace Sys2Proof.Machine

/-! ### The fixed bits of a register -/

/-- The bits of a slot that hold one value in every run: the reserved ones (R35) and the hardwired ones (R39). -/
def Slot.fixedMask (r : Slot) : Word := r.reservedMask ||| r.hardwired

/-- The two words agree in the fixed bits of the slot. -/
def SameFixed (r : Slot) (old new : Word) : Prop :=
  ∀ j, r.fixedMask.getLsbD j = true → new.getLsbD j = old.getLsbD j

/-- The word has 0 in the reserved bits of the slot and 1 in its hardwired bits. -/
def WordClear (r : Slot) (w : Word) : Prop := w &&& r.reservedMask = 0 ∧ w &&& r.hardwired = r.hardwired

theorem reservedBitsClear_iff {s : State} : reservedBitsClear s = true ↔ ∀ r, WordClear r (s.stored r) := by
  simp only [reservedBitsClear, List.all_eq_true, Bool.and_eq_true, decide_eq_true_eq]
  exact ⟨fun h r => h r (by cases r <;> decide), fun h r _ => h r⟩

theorem and_eq_and_of_bits {m a b : Word} (h : ∀ j, m.getLsbD j = true → a.getLsbD j = b.getLsbD j) :
    a &&& m = b &&& m := by
  apply BitVec.eq_of_getLsbD_eq
  intro j _
  cases hm : m.getLsbD j with
  | false => simp [hm]
  | true => simp [hm, h j hm]

theorem WordClear.of_sameFixed {r : Slot} {old new : Word} (hs : SameFixed r old new) (h : WordClear r old) :
    WordClear r new := by
  obtain ⟨hres, hwired⟩ := h
  have hbits : ∀ m : Word, (∀ j, m.getLsbD j = true → r.fixedMask.getLsbD j = true) → new &&& m = old &&& m :=
    fun m hm => and_eq_and_of_bits fun j hj => hs j (hm j hj)
  constructor
  · rw [hbits _ fun j hj => by simp [Slot.fixedMask, hj], hres]
  · rw [hbits _ fun j hj => by simp [Slot.fixedMask, hj], hwired]

theorem SameFixed.refl (r : Slot) (w : Word) : SameFixed r w w := fun _ _ => rfl

theorem SameFixed.trans {r : Slot} {a b c : Word} (h : SameFixed r a b) (h' : SameFixed r b c) :
    SameFixed r a c := fun j hj => (h' j hj).trans (h j hj)

theorem fixedMask_and_rwMask (r : Slot) : r.fixedMask &&& r.rwMask = 0 := by cases r <;> decide

/-- A register write takes only RW bits, none of them fixed. -/
theorem sameFixed_rwMerge (r : Slot) (old v : Word) : SameFixed r old (rwMerge r.rwMask old v) := by
  intro j hj
  have hrw : r.rwMask.getLsbD j = false := by
    simpa [hj] using congrArg (·.getLsbD j) (fixedMask_and_rwMask r)
  simp [getLsbD_rwMerge, hrw]

theorem sameFixed_withBit {r : Slot} {i : Nat} (w : Word) (b : Bool) (hi : i < 32)
    (hr : r.fixedMask.getLsbD i = false) : SameFixed r w (withBit w i b) := by
  intro j hj
  have hne : j ≠ i := by rintro rfl; simp [hr] at hj
  simp [getLsbD_withBit _ _ _ _ hi, hne]

theorem sameFixed_withField {r : Slot} {lo len : Nat} (w : Word) (v : BitVec len) (h : lo + len ≤ 32)
    (hr : ∀ j, lo ≤ j → j < lo + len → r.fixedMask.getLsbD j = false) : SameFixed r w (withField w lo v) := by
  intro j hj
  have hout : ¬ (lo ≤ j ∧ j < lo + len) := fun hin => by simp [hr j hin.1 hin.2] at hj
  rw [getLsbD_withField _ _ _ _ h, if_neg hout]

theorem sameFixed_clkCrAfterWrite (old v : Word) : SameFixed .clkCr old (clkCrAfterWrite old v) := by
  have hbit : ∀ (p : Bool) (w : Word) (i : Nat), i < 32 → (Slot.fixedMask .clkCr).getLsbD i = false →
      SameFixed .clkCr w (if p then withBit w i false else w) := by
    intro p w i hi hfix
    cases p
    · exact SameFixed.refl _ _
    · exact sameFixed_withBit w false hi hfix
  exact ((sameFixed_rwMerge .clkCr old v).trans (hbit _ _ 9 (by omega) (by decide))).trans
    (hbit _ _ 17 (by omega) (by decide))

/-- A byte extended to a word has 0 in the reserved bits of UART_DATA (R50). -/
theorem wordClear_uartData (b : Byte) : WordClear .uartData (b.setWidth 32) := by
  constructor
  · apply BitVec.eq_of_getLsbD_eq
    intro j hj
    by_cases h8 : j < 8
    · have : ∀ j < 8, (Slot.reservedMask .uartData).getLsbD j = false := by decide
      simp [this j h8]
    · have hb : b.getLsbD j = false := BitVec.getLsbD_of_ge _ _ (by omega)
      simp [hb]
  · simp [Slot.hardwired]

/-! ### The registers by slot -/

/-- The state with the stored word of one slot replaced. UART_DATA's is RXDATA (R50). -/
def State.setStored (s : State) (r : Slot) (w : Word) : State :=
  match r with
  | .scratch => { s with scratch := w }
  | .flashAcr => { s with flashAcr := w }
  | .clkCr => { s with clkCr := w }
  | .clkPllcfg => { s with clkPllcfg := w }
  | .clkCfgr => { s with clkCfgr := w }
  | .penr => { s with penr := w }
  | .pwrCr => { s with pwrCr := w }
  | .scr => { s with scr := w }
  | .tickCtrl => { s with tickCtrl := w }
  | .tickReload => { s with tickReload := w }
  | .tickCount => { s with tickCount := w }
  | .uartStat => { s with uartStat := w }
  | .uartData => { s with rxData := w.setWidth 8 }
  | .uartCtrl => { s with uartCtrl := w }
  | .uartBaud => { s with uartBaud := w }

theorem stored_setStored (s : State) (r r' : Slot) (w : Word) :
    (s.setStored r w).stored r' =
      if r' = r then (if r = .uartData then (w.setWidth 8).setWidth 32 else w) else s.stored r' := by
  cases r <;> cases r' <;> rfl

/-- The word a write of `v` leaves in slot `r`, UART_DATA aside (R35, R39). -/
def State.writtenWord (s : State) (r : Slot) (v : Word) : Word :=
  if r = .clkCr then clkCrAfterWrite s.clkCr v else rwMerge r.rwMask (s.stored r) v

theorem sameFixed_writtenWord (s : State) (r : Slot) (v : Word) :
    SameFixed r (s.stored r) (s.writtenWord r v) := by
  unfold State.writtenWord
  split
  · next h => subst h; exact sameFixed_clkCrAfterWrite _ _
  · exact sameFixed_rwMerge _ _ _

/-- Every register write but UART_DATA's replaces the word of its slot and nothing else. -/
theorem regWrite_eq_setStored {s : State} {r : Slot} {v : Word} (h : r ≠ .uartData) :
    s.regWrite r v = s.setStored r (s.writtenWord r v) := by
  cases r
  case uartData => exact absurd rfl h
  case tickCount => simp [State.regWrite, State.setStored, State.writtenWord, State.stored, rwMerge, Slot.rwMask,
    and_allOnes32]
  case uartStat => simp [State.regWrite, State.setStored, State.writtenWord, State.stored, rwMerge, Slot.rwMask,
    and_allOnes32]
  all_goals rfl

/-- A UART_DATA write clears TXE and loads TXDATA (R50). -/
theorem regWrite_uartData (s : State) (v : Word) :
    s.regWrite .uartData v =
      { s.setStored .uartStat (withBit s.uartStat 1 false) with txData := v.setWidth 8 } := rfl

/-! ### Fields after a write -/

theorem fieldOf_rwMerge_taken {mask : Word} {lo len : Nat} (old v : Word)
    (h : ∀ j < len, mask.getLsbD (lo + j) = true) : fieldOf (rwMerge mask old v) lo len = fieldOf v lo len := by
  apply BitVec.eq_of_getLsbD_eq
  intro j hj
  simp [getLsbD_fieldOf, getLsbD_rwMerge, h j hj]

theorem fieldOf_rwMerge_kept {mask : Word} {lo len : Nat} (old v : Word)
    (h : ∀ j < len, mask.getLsbD (lo + j) = false) : fieldOf (rwMerge mask old v) lo len = fieldOf old lo len := by
  apply BitVec.eq_of_getLsbD_eq
  intro j hj
  simp [getLsbD_fieldOf, getLsbD_rwMerge, h j hj]

/-- A CLK_CFGR write takes every field that can hold a reserved code (R41, R53). -/
theorem reservedCode_rwMerge (old v : Word) :
    Slot.reservedCode .clkCfgr (rwMerge (Slot.rwMask .clkCfgr) old v) = Slot.reservedCode .clkCfgr v := by
  simp only [Slot.reservedCode]
  rw [fieldOf_rwMerge_taken, fieldOf_rwMerge_taken, fieldOf_rwMerge_taken, fieldOf_rwMerge_taken] <;> decide

/-- A CLK_CR write sets PLLON to the written bit (R39). -/
theorem getLsbD_clkCrAfterWrite_pllOn (old v : Word) : (clkCrAfterWrite old v).getLsbD 16 = v.getLsbD 16 := by
  have hkeep : ∀ (p : Bool) (w : Word) (i : Nat), i < 32 → 16 ≠ i →
      (if p then withBit w i false else w).getLsbD 16 = w.getLsbD 16 := by
    intro p w i hi hne
    cases p
    · rfl
    · rw [if_pos rfl, getLsbD_withBit _ _ _ _ hi, if_neg hne]
  have hrw : (Slot.rwMask .clkCr).getLsbD 16 = true := by decide
  unfold clkCrAfterWrite
  rw [hkeep _ _ 17 (by omega) (by omega), hkeep _ _ 9 (by omega) (by omega), getLsbD_rwMerge, if_pos hrw]

/-! ### Checked writes -/

/-- A write that passed its checks puts 0 into every reserved bit (R35, R167). -/
theorem reservedMask_of_writeFault {s : State} {r : Slot} {v : Word} (h : writeFault s r v = none) :
    v &&& r.reservedMask = 0 := by
  unfold writeFault at h
  split_ifs at h with _ _ hres
  all_goals simpa using hres

/-- A write that passed its checks puts no reserved code into a field (R53, R167). -/
theorem reservedCode_of_writeFault {s : State} {r : Slot} {v : Word} (h : writeFault s r v = none) :
    r.reservedCode v = false := by
  unfold writeFault at h
  split_ifs at h with _ _ _ hcode
  all_goals simpa using hcode

end Sys2Proof.Machine
end

section
/-! SUPPORT. What a step keeps of the registers (R8, R35, R41, R185), as one relation between the states before and
after: it composes, and every operation on registers satisfies it. -/

namespace Sys2Proof.Machine

/-- From `s` to `t` the launch parameters stay, and what holds of the registers in `s` holds in `t`: clear reserved
bits, legal clock codes and the variant's configuration in the PLL. -/
structure KeepsRegisters (s t : State) : Prop where
  launch : t.launch = s.launch
  codes : clockCodesLegal s = true → clockCodesLegal t = true
  reserved : reservedBitsClear s = true → reservedBitsClear t = true
  pll : pllConfigHeld s = true → pllConfigHeld t = true

/-- The PLL's configuration is due: it runs, or CSEQ is about to turn it on (R185, R195). -/
def State.pllDue (s : State) : Prop := s.pllOn = true ∨ s.seqState = .s3PllOn

theorem pllConfigHeld_iff {s : State} : pllConfigHeld s = true ↔
    (s.pllDue → s.clkPllcfg &&& Slot.rwMask .clkPllcfg = pllCfgValue s.launch.variant) := by
  simp [pllConfigHeld, State.pllDue, imp_iff_not_or]

theorem clockCodesLegal_iff {s : State} :
    clockCodesLegal s = true ↔ Slot.reservedCode .clkCfgr s.clkCfgr = false ∧ fieldOf s.clkCfgr 2 2 ≠ 3 := by
  rw [clockCodesLegal, Bool.and_eq_true, Bool.not_eq_true', decide_eq_true_eq, State.sws]

namespace KeepsRegisters

theorem refl (s : State) : KeepsRegisters s s := ⟨rfl, id, id, id⟩

theorem trans {s t u : State} (h : KeepsRegisters s t) (h' : KeepsRegisters t u) : KeepsRegisters s u :=
  ⟨h'.launch.trans h.launch, h'.codes ∘ h.codes, h'.reserved ∘ h.reserved, h'.pll ∘ h.pll⟩

/-- A step that writes no register keeps them, unless it takes CSEQ to S3_PLL_ON. -/
theorem of_stored {s t : State} (hlaunch : t.launch = s.launch) (hstored : t.stored = s.stored)
    (hseq : t.seqState = .s3PllOn → s.seqState = .s3PllOn) : KeepsRegisters s t := by
  have hreg : ∀ r, t.stored r = s.stored r := fun r => congrFun hstored r
  have hcr : t.clkCr = s.clkCr := hreg .clkCr
  have hcfg : t.clkPllcfg = s.clkPllcfg := hreg .clkPllcfg
  have hcfgr : t.clkCfgr = s.clkCfgr := hreg .clkCfgr
  refine ⟨hlaunch, ?_, ?_, ?_⟩
  · simp only [clockCodesLegal_iff, hcfgr, imp_self]
  · simp only [reservedBitsClear_iff, hreg, imp_self]
  · simp only [pllConfigHeld_iff, State.pllDue, State.pllOn, hcr, hcfg, hlaunch]
    exact fun h hdue => h (hdue.imp_right hseq)

end KeepsRegisters

/-! ### Replacing one register -/

@[simp] theorem State.setStored_launch (s : State) (r : Slot) (w : Word) : (s.setStored r w).launch = s.launch := by
  cases r <;> rfl

@[simp] theorem State.setStored_seqState (s : State) (r : Slot) (w : Word) :
    (s.setStored r w).seqState = s.seqState := by
  cases r <;> rfl

theorem stored_setStored_ne {s : State} {r r' : Slot} {w : Word} (h : r' ≠ r) :
    (s.setStored r w).stored r' = s.stored r' := by
  rw [stored_setStored, if_neg h]

theorem reservedBitsClear_setStored {s : State} {r : Slot} {w : Word}
    (hfix : r ≠ .uartData → SameFixed r (s.stored r) w) (h : reservedBitsClear s = true) :
    reservedBitsClear (s.setStored r w) = true := by
  rw [reservedBitsClear_iff] at h ⊢
  intro r'
  rw [stored_setStored]
  by_cases hr : r' = r
  · subst hr
    by_cases hd : r' = .uartData
    · subst hd; exact wordClear_uartData _
    · simpa [hd] using (h r').of_sameFixed (hfix hd)
  · simpa [hr] using h r'

theorem clockCodesLegal_setStored {s : State} {r : Slot} {w : Word} (hr : r ≠ .clkCfgr)
    (h : clockCodesLegal s = true) : clockCodesLegal (s.setStored r w) = true := by
  have hcfgr : (s.setStored r w).clkCfgr = s.clkCfgr := stored_setStored_ne hr.symm
  rw [clockCodesLegal_iff] at h ⊢
  rwa [hcfgr]

theorem pllConfigHeld_setStored {s : State} {r : Slot} {w : Word}
    (hon : r = .clkCr → w.getLsbD 16 = true → s.pllDue) (hr : r ≠ .clkPllcfg)
    (h : pllConfigHeld s = true) : pllConfigHeld (s.setStored r w) = true := by
  have hcfg : (s.setStored r w).clkPllcfg = s.clkPllcfg := stored_setStored_ne hr.symm
  rw [pllConfigHeld_iff] at h ⊢
  rw [hcfg, State.setStored_launch]
  rintro (hpll | hseq)
  · by_cases hcr : r = .clkCr
    · subst hcr; exact h (hon rfl hpll)
    · have hsame : (s.setStored r w).clkCr = s.clkCr := stored_setStored_ne (Ne.symm hcr)
      exact h (.inl (by rwa [State.pllOn, hsame] at hpll))
  · exact h (.inr (by simpa using hseq))

namespace KeepsRegisters

/-- Replacing the word of a slot other than the three clock registers. -/
theorem setStored {s : State} {r : Slot} {w : Word} (hfix : r ≠ .uartData → SameFixed r (s.stored r) w)
    (hcr : r ≠ .clkCr) (hpllcfg : r ≠ .clkPllcfg) (hcfgr : r ≠ .clkCfgr) :
    KeepsRegisters s (s.setStored r w) where
  launch := s.setStored_launch r w
  codes := clockCodesLegal_setStored hcfgr
  reserved := reservedBitsClear_setStored hfix
  pll := pllConfigHeld_setStored (fun h => absurd h hcr) hpllcfg

/-- Replacing CLK_CR, where PLLON is set only for a PLL whose configuration is due. -/
theorem setStored_clkCr {s : State} {w : Word} (hfix : SameFixed .clkCr s.clkCr w)
    (hon : w.getLsbD 16 = true → s.pllDue) : KeepsRegisters s (s.setStored .clkCr w) where
  launch := rfl
  codes := clockCodesLegal_setStored (by decide)
  reserved := reservedBitsClear_setStored fun _ => hfix
  pll := pllConfigHeld_setStored (fun _ => hon) (by decide)

/-- Replacing CLK_CFGR by a word with legal codes. -/
theorem setStored_clkCfgr {s : State} {w : Word} (hfix : SameFixed .clkCfgr s.clkCfgr w)
    (hlegal : clockCodesLegal s = true → Slot.reservedCode .clkCfgr w = false ∧ fieldOf w 2 2 ≠ 3) :
    KeepsRegisters s (s.setStored .clkCfgr w) where
  launch := rfl
  codes h := clockCodesLegal_iff.mpr (hlegal h)
  reserved := reservedBitsClear_setStored fun _ => hfix
  pll := pllConfigHeld_setStored nofun (by decide)

/-- Replacing CLK_PLLCFG by the variant's configuration, wherever CSEQ goes next. -/
theorem setStored_clkPllcfg {s : State} {w : Word} (hfix : SameFixed .clkPllcfg s.clkPllcfg w)
    (hw : w &&& Slot.rwMask .clkPllcfg = pllCfgValue s.launch.variant) (q : SeqState) :
    KeepsRegisters s { s.setStored .clkPllcfg w with seqState := q } where
  launch := rfl
  codes := clockCodesLegal_setStored (by decide)
  reserved := reservedBitsClear_setStored (r := .clkPllcfg) fun _ => hfix
  pll _ := pllConfigHeld_iff.mpr fun _ => hw

/-- Setting or clearing a bit of CLK_CR that is neither fixed nor PLLON. -/
theorem clkCr_withBit (s : State) (i : Nat) (b : Bool) (hi : i < 32) (hne : 16 ≠ i)
    (hfix : (Slot.fixedMask .clkCr).getLsbD i = false) :
    KeepsRegisters s (s.setStored .clkCr (withBit s.clkCr i b)) := by
  refine setStored_clkCr (sameFixed_withBit _ _ hi hfix) fun hon => .inl ?_
  rwa [getLsbD_withBit _ _ _ _ hi, if_neg hne] at hon

/-- Setting or clearing a bit of UART_STAT that is not fixed. -/
theorem uartStat_withBit (s : State) (i : Nat) (b : Bool) (hi : i < 32)
    (hfix : (Slot.fixedMask .uartStat).getLsbD i = false) :
    KeepsRegisters s (s.setStored .uartStat (withBit s.uartStat i b)) :=
  setStored (fun _ => sameFixed_withBit _ _ hi hfix) (by decide) (by decide) (by decide)

/-! ### Reads and writes of registers -/

theorem afterRead (s : State) (r : Slot) : KeepsRegisters s (s.afterRead r) := by
  unfold State.afterRead
  split
  · exact (uartStat_withBit s 0 false (by omega) (by decide)).trans
      (uartStat_withBit _ 2 false (by omega) (by decide))
  · exact refl s

/-- A write that passed its checks keeps the registers, if it turns the PLL on only when its configuration is due,
and is not CLK_PLLCFG's. -/
theorem regWrite {s : State} {r : Slot} {v : Word} (hok : writeFault s r v = none)
    (hon : r = .clkCr → v.getLsbD 16 = true → s.pllDue) (hr : r ≠ .clkPllcfg) :
    KeepsRegisters s (s.regWrite r v) := by
  by_cases hdata : r = .uartData
  · subst hdata
    rw [regWrite_uartData]
    exact (uartStat_withBit s 1 false (by omega) (by decide)).trans (of_stored rfl rfl id)
  rw [regWrite_eq_setStored hdata]
  have hfix := sameFixed_writtenWord s r v
  by_cases hcr : r = .clkCr
  · subst hcr
    exact setStored_clkCr hfix fun h => hon rfl ((getLsbD_clkCrAfterWrite_pllOn s.clkCr v).symm.trans h)
  by_cases hcfgr : r = .clkCfgr
  · subst hcfgr
    refine setStored_clkCfgr hfix fun hlegal => ⟨?_, ?_⟩
    · exact (reservedCode_rwMerge s.clkCfgr v).trans (reservedCode_of_writeFault hok)
    · have hsws : fieldOf (rwMerge (Slot.rwMask .clkCfgr) s.clkCfgr v) 2 2 = fieldOf s.clkCfgr 2 2 :=
        fieldOf_rwMerge_kept _ _ (by decide)
      exact hsws ▸ (clockCodesLegal_iff.mp hlegal).2
  · exact setStored (fun _ => hfix) hcr hr hcfgr

end KeepsRegisters

end Sys2Proof.Machine
end

section
/-! SUPPORT. What a step may answer: a next state that keeps the registers or, outside the valid states only, a stop of
the model's own (log entries 13 and 14). First the accesses, then HOST's micro-steps, command by command. -/

namespace Sys2Proof.Machine

/-- An access begun in `s` gives a state that keeps the registers or raises a fault of R310; it names a ring slot that
does not exist only where `valid` fails. -/
def AccessSound (valid : Prop) (s : State) : Except Stop State → Prop
  | .ok t => KeepsRegisters s t
  | .error (.raise _) => True
  | .error .noSuchRingSlot => ¬ valid

/-- A step begun in `s` gives a state that keeps the registers; it stops only where `valid` fails. -/
def StepSound (valid : Prop) (s : State) : Result → Prop
  | .next t => KeepsRegisters s t
  | .fault _ => ¬ valid
  | .refused _ => False

theorem StepSound.keeps {valid : Prop} {s t : State} {r : Result} (h : StepSound valid s r) (hr : r = .next t) :
    KeepsRegisters s t := by
  subst hr; exact h

theorem StepSound.progress {valid : Prop} {s : State} {r : Result} (h : StepSound valid s r) (hv : valid) :
    ∃ t, r = .next t := by
  cases r with
  | next t => exact ⟨t, rfl⟩
  | fault f => exact absurd hv h
  | refused f => exact h.elim

theorem StepSound.mono {valid valid' : Prop} {s : State} {r : Result} (h : StepSound valid s r)
    (hv : valid' → valid) : StepSound valid' s r := by
  cases r with
  | next t => exact h
  | fault f => exact fun hv' => h (hv hv')
  | refused f => exact h

theorem StepSound.ite {valid : Prop} {s : State} {p : Prop} [Decidable p] {r q : Result}
    (hr : StepSound valid s r) (hq : StepSound valid s q) : StepSound valid s (if p then r else q) := by
  split
  · exact hr
  · exact hq

theorem KeepsRegisters.ite {s t u : State} {p : Prop} [Decidable p] (ht : KeepsRegisters s t)
    (hu : KeepsRegisters s u) : KeepsRegisters s (if p then t else u) := by
  split
  · exact ht
  · exact hu

/-- Recording a fault keeps the registers (R311). -/
theorem KeepsRegisters.raise (s : State) (c : FaultCode) : KeepsRegisters s (s.raise c) := .of_stored rfl rfl id

theorem commit_sound {valid : Prop} {s : State} {x : Except Stop State} (h : AccessSound valid s x) :
    StepSound valid s (commit s x) := by
  match x, h with
  | .ok t, h => exact h
  | .error (.raise c), _ => exact .raise s c
  | .error .noSuchRingSlot, h => exact h

/-! ### Composing accesses -/

section

variable {valid : Prop} {s : State}

/-- An access begun after what kept the registers. -/
theorem AccessSound.of_keeps {t : State} {x : Except Stop State} (hst : KeepsRegisters s t)
    (hx : AccessSound valid t x) : AccessSound valid s x := by
  match x, hx with
  | .ok u, htu => exact hst.trans htu
  | .error (.raise _), _ => trivial
  | .error .noSuchRingSlot, h => exact h

/-- An access begun after another. -/
theorem bind_sound {x : Except Stop State} {f : State → Except Stop State} (hx : AccessSound valid s x)
    (hf : ∀ t, x = .ok t → AccessSound valid t (f t)) : AccessSound valid s (x >>= f) := by
  match x, hx with
  | .ok t, hst => exact AccessSound.of_keeps hst (hf t rfl)
  | .error (.raise _), _ => trivial
  | .error .noSuchRingSlot, h => exact h

/-- An access, then an update that keeps the registers. -/
theorem map_sound {x : Except Stop State} {g : State → State} (hx : AccessSound valid s x)
    (hg : ∀ t, KeepsRegisters t (g t)) : AccessSound valid s (x.map g) := by
  match x, hx with
  | .ok t, hst => exact hst.trans (hg t)
  | .error (.raise _), _ => trivial
  | .error .noSuchRingSlot, h => exact h

theorem pure_ite_sound {t u : State} {p : Prop} [Decidable p] (ht : KeepsRegisters s t) (hu : KeepsRegisters s u) :
    AccessSound valid s (pure (if p then t else u)) := KeepsRegisters.ite ht hu

theorem devRead_sound {r : Slot} {f : Word × State → Except Stop State}
    (hf : ∀ v, AccessSound valid (s.afterRead r) (f (v, s.afterRead r))) :
    AccessSound valid s (devRead s r >>= f) := by
  unfold devRead
  split
  · trivial
  · exact AccessSound.of_keeps (.afterRead s r) (hf _)

theorem hostRead_sound {n : Nat} {f : Word × State → Except Stop State}
    (hf : ∀ v r, AccessSound valid (s.afterRead r) (f (v, s.afterRead r))) :
    AccessSound valid s (hostRead s n >>= f) := by
  unfold hostRead
  split
  · trivial
  · split
    · trivial
    · exact devRead_sound fun v => hf v _

/-- A device write that turns the PLL on only when its configuration is due, and is not CLK_PLLCFG's. -/
theorem devWrite_sound {r : Slot} {v : Word} (hon : r = .clkCr → v.getLsbD 16 = true → s.pllDue)
    (hr : r ≠ .clkPllcfg) : AccessSound valid s (devWrite s r v) := by
  unfold devWrite
  split
  · trivial
  · next hok => exact KeepsRegisters.regWrite hok hon hr

/-- A device write to a slot that CSEQ and IRQE do not own (R36). -/
theorem devWrite_hosts_sound {r : Slot} {v : Word} (hr : r.notHosts = false) : AccessSound valid s (devWrite s r v) :=
  devWrite_sound (by rintro rfl; cases hr) (by rintro rfl; cases hr)

theorem hostWrite_sound {n : Nat} {v : Word} : AccessSound valid s (hostWrite s n v) := by
  unfold hostWrite
  split
  · trivial
  · split
    · trivial
    · split
      · trivial
      · next hr _ => exact devWrite_hosts_sound (by simpa using hr)

theorem writeRingSlot_sound {k : RingId} {i : Nat} {b : Byte} (hi : valid → i < ringCap s.launch k) :
    AccessSound valid s (writeRingSlot s k i b) := by
  unfold writeRingSlot
  split
  · exact KeepsRegisters.of_stored rfl rfl id
  · next hout => exact fun hv => hout (hi hv)

theorem readRingSlot_sound {k : RingId} {i : Nat} {f : Byte → Except Stop State}
    (hi : valid → i < ringCap s.launch k) (hf : ∀ b, AccessSound valid s (f b)) :
    AccessSound valid s (readRingSlot s k i >>= f) := by
  unfold readRingSlot
  split
  · exact hf _
  · next hout => exact fun hv => hout (hi hv)

theorem cmdWrite_sound {c : Word} : AccessSound valid s (cmdWrite s c) := by
  unfold cmdWrite
  split
  · trivial
  · split
    · trivial
    · exact KeepsRegisters.of_stored rfl rfl id

/-- HOST's issue step writes no register (R34). -/
theorem issue_sound : AccessSound valid s (issue s) := by
  unfold issue
  split
  · exact .refl s
  · next c a _ =>
    have harg : KeepsRegisters s { s with arg := a } := .of_stored rfl rfl id
    exact map_sound (.of_keeps harg cmdWrite_sound) fun t => .of_stored rfl rfl id

end

/-! ### Indices in range -/

theorem ringIndices_lt {s : State} (h : ringsInRange s = true) (k : RingId) :
    (s.ringW k).toNat < ringCap s.launch k ∧ (s.ringR k).toNat < ringCap s.launch k := by
  simp only [ringsInRange, ringInRange, Bool.and_eq_true, decide_eq_true_eq] at h
  obtain ⟨⟨-, hrx⟩, htx⟩ := h
  cases k
  · exact hrx
  · exact htx

/-! ### HOST's micro-steps, command by command -/

/-- The states in which command `i` has its micro-step and the ring slots it accesses. -/
def MicroStepValid (i : Instr) (s : State) : Prop :=
  s.current.ms.number ≤ (lastMicroStep i).number ∧ ringsInRange s = true

theorem noSuchMicroStep_sound {i : Instr} {s : State} {m : MicroStep} (hm : s.current.ms = m)
    (h : decide ((lastMicroStep i).number < m.number) = true) :
    StepSound (MicroStepValid i s) s (.fault .noSuchMicroStep) := by
  subst hm
  exact fun hv => absurd hv.1 (Nat.not_le.mpr (of_decide_eq_true h))

/-- In a valid state both indices of a ring name slots that exist (R60, R61). -/
theorem writeIndex_lt {i : Instr} {s : State} {k : RingId} (hv : MicroStepValid i s) :
    (s.ringW k).toNat < ringCap s.launch k := (ringIndices_lt hv.2 k).1

theorem readIndex_lt {i : Instr} {s : State} {k : RingId} (hv : MicroStepValid i s) :
    (s.ringR k).toNat < ringCap s.launch k := (ringIndices_lt hv.2 k).2

theorem execRd_sound (slot : Nat) (s : State) : StepSound (MicroStepValid (.rd slot) s) s (execRd slot s) := by
  unfold execRd
  cases hms : s.current.ms
  case ms1 => exact commit_sound (hostRead_sound fun _ _ => KeepsRegisters.of_stored rfl rfl id)
  all_goals exact noSuchMicroStep_sound hms rfl

theorem execWr_sound (slot : Nat) (s : State) : StepSound (MicroStepValid (.wr slot) s) s (execWr slot s) := by
  unfold execWr
  cases hms : s.current.ms
  case ms1 => exact commit_sound (bind_sound hostWrite_sound fun _ _ => KeepsRegisters.of_stored rfl rfl id)
  all_goals exact noSuchMicroStep_sound hms rfl

theorem execRdbit_sound (slot bit : Nat) (s : State) :
    StepSound (MicroStepValid (.rdbit slot bit) s) s (execRdbit slot bit s) := by
  unfold execRdbit
  cases hms : s.current.ms
  case ms1 => exact commit_sound (hostRead_sound fun _ _ => KeepsRegisters.of_stored rfl rfl id)
  all_goals exact noSuchMicroStep_sound hms rfl

theorem execWrbit_sound (slot bit : Nat) (v : Bool) (s : State) :
    StepSound (MicroStepValid (.wrbit slot bit v) s) s (execWrbit slot bit v s) := by
  unfold execWrbit
  cases hms : s.current.ms
  case ms1 => exact commit_sound (hostRead_sound fun _ _ => KeepsRegisters.of_stored rfl rfl id)
  case ms2 => exact commit_sound (bind_sound hostWrite_sound fun _ _ => KeepsRegisters.of_stored rfl rfl id)
  all_goals exact noSuchMicroStep_sound hms rfl

theorem execPoll_sound (slot bit : Nat) (v : Bool) (s : State) :
    StepSound (MicroStepValid (.poll slot bit v) s) s (execPoll slot bit v s) := by
  unfold execPoll
  cases hms : s.current.ms
  case ms1 => exact commit_sound (hostRead_sound fun _ _ => pure_ite_sound (.of_stored rfl rfl id) (.refl _))
  all_goals exact noSuchMicroStep_sound hms rfl

theorem execTryput_sound (k : RingId) (b : Byte) (s : State) :
    StepSound (MicroStepValid (.tryput k b) s) s (execTryput k b s) := by
  unfold execTryput
  cases hms : s.current.ms
  case ms1 => exact StepSound.ite (commit_sound trivial) (KeepsRegisters.of_stored rfl rfl id)
  case ms2 =>
    exact StepSound.ite (KeepsRegisters.of_stored rfl rfl id)
      (commit_sound (bind_sound (writeRingSlot_sound writeIndex_lt) fun _ _ => KeepsRegisters.of_stored rfl rfl id))
  case ms3 => exact KeepsRegisters.of_stored rfl rfl id
  all_goals exact noSuchMicroStep_sound hms rfl

theorem execTryget_sound (k : RingId) (s : State) :
    StepSound (MicroStepValid (.tryget k) s) s (execTryget k s) := by
  unfold execTryget
  cases hms : s.current.ms
  case ms1 => exact StepSound.ite (commit_sound trivial) (KeepsRegisters.of_stored rfl rfl id)
  case ms2 =>
    exact StepSound.ite (KeepsRegisters.of_stored rfl rfl id)
      (commit_sound (readRingSlot_sound readIndex_lt fun _ => KeepsRegisters.of_stored rfl rfl id))
  case ms3 => exact KeepsRegisters.of_stored rfl rfl id
  all_goals exact noSuchMicroStep_sound hms rfl

theorem execIsfull_sound (k : RingId) (s : State) :
    StepSound (MicroStepValid (.isfull k) s) s (execIsfull k s) := by
  unfold execIsfull
  cases hms : s.current.ms
  case ms1 => exact KeepsRegisters.of_stored rfl rfl id
  case ms2 => exact KeepsRegisters.of_stored rfl rfl id
  all_goals exact noSuchMicroStep_sound hms rfl

theorem execIsempty_sound (k : RingId) (s : State) :
    StepSound (MicroStepValid (.isempty k) s) s (execIsempty k s) := by
  unfold execIsempty
  cases hms : s.current.ms
  case ms1 => exact KeepsRegisters.of_stored rfl rfl id
  case ms2 => exact KeepsRegisters.of_stored rfl rfl id
  all_goals exact noSuchMicroStep_sound hms rfl

theorem execCount_sound (k : RingId) (s : State) :
    StepSound (MicroStepValid (.count k) s) s (execCount k s) := by
  unfold execCount
  cases hms : s.current.ms
  case ms1 => exact KeepsRegisters.of_stored rfl rfl id
  case ms2 => exact KeepsRegisters.of_stored rfl rfl id
  all_goals exact noSuchMicroStep_sound hms rfl

theorem execUinit_sound (s : State) : StepSound (MicroStepValid .uinit s) s (execUinit s) := by
  unfold execUinit
  cases hms : s.current.ms
  case ms1 =>
    exact StepSound.ite (commit_sound trivial)
      (commit_sound (devRead_sound fun _ => KeepsRegisters.of_stored rfl rfl id))
  case ms2 => exact commit_sound (bind_sound (devWrite_hosts_sound rfl) fun _ _ => KeepsRegisters.of_stored rfl rfl id)
  case ms3 => exact commit_sound (bind_sound (devWrite_hosts_sound rfl) fun _ _ => KeepsRegisters.of_stored rfl rfl id)
  case ms4 => exact commit_sound (bind_sound (devWrite_hosts_sound rfl) fun _ _ => KeepsRegisters.of_stored rfl rfl id)
  all_goals exact noSuchMicroStep_sound hms rfl

theorem execChinit_sound (s : State) : StepSound (MicroStepValid .chinit s) s (execChinit s) := by
  unfold execChinit
  cases hms : s.current.ms
  case ms1 =>
    exact StepSound.ite (commit_sound trivial)
      (commit_sound (devRead_sound fun _ => KeepsRegisters.of_stored rfl rfl id))
  case ms2 => exact commit_sound (bind_sound (devWrite_hosts_sound rfl) fun _ _ => KeepsRegisters.of_stored rfl rfl id)
  case ms3 => exact commit_sound (bind_sound (devWrite_hosts_sound rfl) fun _ _ => KeepsRegisters.of_stored rfl rfl id)
  case ms8 => exact commit_sound (bind_sound (devWrite_hosts_sound rfl) fun _ _ => KeepsRegisters.of_stored rfl rfl id)
  all_goals exact KeepsRegisters.of_stored rfl rfl id

theorem execPputc_sound (b : Byte) (s : State) : StepSound (MicroStepValid (.pputc b) s) s (execPputc b s) := by
  unfold execPputc
  cases hms : s.current.ms
  case ms1 =>
    exact StepSound.ite (commit_sound trivial)
      (commit_sound (devRead_sound fun _ => pure_ite_sound (.of_stored rfl rfl id) (.refl _)))
  case ms2 => exact commit_sound (bind_sound (devWrite_hosts_sound rfl) fun _ _ => KeepsRegisters.of_stored rfl rfl id)
  all_goals exact noSuchMicroStep_sound hms rfl

theorem execPgetc_sound (s : State) : StepSound (MicroStepValid .pgetc s) s (execPgetc s) := by
  unfold execPgetc
  cases hms : s.current.ms
  case ms1 =>
    exact StepSound.ite (commit_sound trivial)
      (commit_sound (devRead_sound fun _ => pure_ite_sound (.of_stored rfl rfl id) (.refl _)))
  case ms2 => exact commit_sound (devRead_sound fun _ => KeepsRegisters.of_stored rfl rfl id)
  all_goals exact noSuchMicroStep_sound hms rfl

theorem execPutc_sound (b : Byte) (s : State) : StepSound (MicroStepValid (.putc b) s) s (execPutc b s) := by
  unfold execPutc
  cases hms : s.current.ms
  case ms1 => exact StepSound.ite (KeepsRegisters.of_stored rfl rfl id) (commit_sound trivial)
  case ms2 =>
    exact StepSound.ite (KeepsRegisters.of_stored rfl rfl id)
      (commit_sound (bind_sound (writeRingSlot_sound writeIndex_lt) fun _ _ => KeepsRegisters.of_stored rfl rfl id))
  case ms3 => exact KeepsRegisters.of_stored rfl rfl id
  case ms4 => exact commit_sound (devRead_sound fun _ => KeepsRegisters.of_stored rfl rfl id)
  case ms5 => exact commit_sound (bind_sound (devWrite_hosts_sound rfl) fun _ _ => KeepsRegisters.of_stored rfl rfl id)
  all_goals exact noSuchMicroStep_sound hms rfl

theorem execGetc_sound (s : State) : StepSound (MicroStepValid .getc s) s (execGetc s) := by
  unfold execGetc
  cases hms : s.current.ms
  case ms1 => exact StepSound.ite (KeepsRegisters.of_stored rfl rfl id) (commit_sound trivial)
  case ms2 =>
    exact StepSound.ite (KeepsRegisters.of_stored rfl rfl id)
      (commit_sound (readRingSlot_sound readIndex_lt fun _ => KeepsRegisters.of_stored rfl rfl id))
  case ms3 => exact KeepsRegisters.of_stored rfl rfl id
  all_goals exact noSuchMicroStep_sound hms rfl

theorem execBringup_sound (s : State) : StepSound (MicroStepValid .bringup s) s (execBringup s) := by
  unfold execBringup
  cases hms : s.current.ms
  case ms1 => exact KeepsRegisters.of_stored rfl rfl nofun
  case ms2 => exact KeepsRegisters.ite (.of_stored rfl rfl id) (.refl s)
  all_goals exact noSuchMicroStep_sound hms rfl

theorem execPdown_sound (mode : PowerMode) (s : State) :
    StepSound (MicroStepValid (.pdown mode) s) s (execPdown mode s) := by
  unfold execPdown
  cases hms : s.current.ms
  case ms1 => exact KeepsRegisters.of_stored rfl rfl nofun
  case ms2 => exact KeepsRegisters.ite (.of_stored rfl rfl id) (.refl s)
  all_goals exact noSuchMicroStep_sound hms rfl

theorem execIrqoff_sound (s : State) : StepSound (MicroStepValid .irqoff s) s (execIrqoff s) := by
  unfold execIrqoff
  cases hms : s.current.ms
  case ms1 => exact KeepsRegisters.of_stored rfl rfl id
  all_goals exact noSuchMicroStep_sound hms rfl

theorem execIrqon_sound (s : State) : StepSound (MicroStepValid .irqon s) s (execIrqon s) := by
  unfold execIrqon
  cases hms : s.current.ms
  case ms1 => exact KeepsRegisters.of_stored rfl rfl id
  all_goals exact noSuchMicroStep_sound hms rfl

theorem execRdtick_sound (s : State) : StepSound (MicroStepValid .rdtick s) s (execRdtick s) := by
  unfold execRdtick
  cases hms : s.current.ms
  case ms1 => exact KeepsRegisters.of_stored rfl rfl id
  all_goals exact noSuchMicroStep_sound hms rfl

/-- HOST's micro-step of any command (R56). -/
theorem exec_sound (i : Instr) (s : State) : StepSound (MicroStepValid i s) s (exec i s) := by
  cases i with
  | rd slot => exact execRd_sound slot s
  | wr slot => exact execWr_sound slot s
  | rdbit slot bit => exact execRdbit_sound slot bit s
  | wrbit slot bit v => exact execWrbit_sound slot bit v s
  | poll slot bit v => exact execPoll_sound slot bit v s
  | tryput k b => exact execTryput_sound k b s
  | tryget k => exact execTryget_sound k s
  | isfull k => exact execIsfull_sound k s
  | isempty k => exact execIsempty_sound k s
  | count k => exact execCount_sound k s
  | uinit => exact execUinit_sound s
  | chinit => exact execChinit_sound s
  | pputc b => exact execPputc_sound b s
  | pgetc => exact execPgetc_sound s
  | putc b => exact execPutc_sound b s
  | getc => exact execGetc_sound s
  | bringup => exact execBringup_sound s
  | pdown mode => exact execPdown_sound mode s
  | irqoff => exact execIrqoff_sound s
  | irqon => exact execIrqon_sound s
  | rdtick => exact execRdtick_sound s

end Sys2Proof.Machine
end

section
/-! SUPPORT. The same of the other agents: the sequencer, the interrupt engine, the devices and WAKE, and of one step
whatever its move. -/

namespace Sys2Proof.Machine

variable {valid : Prop} {s : State}

/-! ### The sequencer -/

theorem seqWrite_sound {r : Slot} {v : Word} {q : SeqState} (hon : r = .clkCr → v.getLsbD 16 = true → s.pllDue)
    (hr : r ≠ .clkPllcfg) (hq : q ≠ .s3PllOn) : AccessSound valid s (seqWrite s r v q) :=
  map_sound (devWrite_sound hon hr) fun _ => .of_stored rfl rfl fun h => absurd h hq

/-- CLK_CR reads PLLON as it is stored (R39). -/
theorem getLsbD_regValue_pllOn (s : State) : (s.regValue .clkCr).getLsbD 16 = s.pllOn := by
  have hmask : (Slot.rwMask .clkCr ||| Slot.roMask .clkCr).getLsbD 16 = true := by decide
  have hwired : (Slot.hardwired .clkCr).getLsbD 16 = false := by decide
  rw [State.regValue, BitVec.getLsbD_or, BitVec.getLsbD_and, hmask, hwired, Bool.and_true, Bool.or_false]
  rfl

/-- Turning the oscillator on writes PLLON back as it is (R184). -/
theorem seqS2XoscOn_sound : AccessSound valid s (seqS2XoscOn s) := by
  refine seqWrite_sound (fun _ hon => .inl ?_) (by decide) (by decide)
  rwa [getLsbD_withBit _ _ _ _ (by omega), if_neg (by omega), getLsbD_regValue_pllOn] at hon

/-- A CLK_PLLCFG write without reserved bits is what the register then holds (R40). -/
theorem rwMerge_clkPllcfg (old v : Word) (h : v &&& Slot.reservedMask .clkPllcfg = 0) :
    rwMerge (Slot.rwMask .clkPllcfg) old v &&& Slot.rwMask .clkPllcfg = v := by
  apply BitVec.eq_of_getLsbD_eq
  intro j hj
  have hres : Slot.reservedMask .clkPllcfg = ~~~Slot.rwMask .clkPllcfg := by decide
  have hbit : v.getLsbD j = true → (Slot.rwMask .clkPllcfg).getLsbD j = true := by
    intro hv
    simpa [hres, hj, hv] using congrArg (·.getLsbD j) h
  rw [BitVec.getLsbD_and, getLsbD_rwMerge]
  cases hm : (Slot.rwMask .clkPllcfg).getLsbD j
  · cases hv : v.getLsbD j
    · simp
    · simp [hbit hv] at hm
  · simp

/-- S3_PLL_CFG writes the configuration that S3_PLL_ON then relies on (R185). -/
theorem seqS3PllCfg_sound : AccessSound valid s (seqS3PllCfg s) := by
  unfold seqS3PllCfg seqWrite devWrite
  split
  · trivial
  · next hok =>
    exact KeepsRegisters.setStored_clkPllcfg (sameFixed_rwMerge .clkPllcfg _ _)
      (rwMerge_clkPllcfg _ _ (reservedMask_of_writeFault hok)) .s3PllOn

theorem seqS4PrescInter_sound : AccessSound valid s (seqS4PrescInter s) := by
  have hnext : (if s.launch.variant.finalAfterSwitch then SeqState.s5Switch else .s4PrescFinal) ≠ .s3PllOn := by
    split <;> decide
  unfold seqS4PrescInter
  cases s.launch.variant.prescInter with
  | some p => exact seqWrite_sound nofun (by decide) hnext
  | none => exact KeepsRegisters.of_stored rfl rfl fun h => absurd h hnext

theorem seqS3PllWait_keeps (s : State) : KeepsRegisters s (seqS3PllWait s) := by
  refine .ite (.of_stored rfl rfl fun h => ?_) (.refl s)
  change (if s.launch.variant.prescInter.isSome then SeqState.s4PrescInter else .s4PrescFinal) = _ at h
  split at h <;> cases h

theorem seqS5SwitchWait_keeps (s : State) : KeepsRegisters s (seqS5SwitchWait s) := by
  refine .ite (.of_stored rfl rfl fun h => ?_) (.refl s)
  change (if s.launch.variant.finalAfterSwitch then SeqState.s4PrescLate else .s6TickArm) = _ at h
  split at h <;> cases h

/-- CSEQ's step, whatever SEQ_STATE names (R65, R196). -/
theorem cseqStep_sound (s : State) : AccessSound valid s (cseqStep s) := by
  unfold cseqStep
  cases hq : s.seqState
  case idle => exact KeepsRegisters.refl s
  case s2XoscOn => exact seqS2XoscOn_sound
  case s2XoscWait => exact KeepsRegisters.ite (.of_stored rfl rfl nofun) (.refl s)
  case s3PllCfg => exact seqS3PllCfg_sound
  case s3PllOn => exact seqWrite_sound (fun _ _ => .inr hq) (by decide) (by decide)
  case s3PllWait => exact seqS3PllWait_keeps s
  case s4PrescInter => exact seqS4PrescInter_sound
  case s5SwitchWait => exact seqS5SwitchWait_keeps s
  case p4Wfe => exact KeepsRegisters.of_stored rfl rfl id
  all_goals exact seqWrite_sound nofun (by decide) (by decide)

/-! ### The interrupt engine -/

theorem putByte_sound {k : RingId} {b : Byte} (hw : valid → (s.ringW k).toNat < ringCap s.launch k) :
    AccessSound valid s (putByte s k b) := by
  unfold putByte
  split
  · exact KeepsRegisters.refl s
  · exact map_sound (writeRingSlot_sound hw) fun _ => .of_stored rfl rfl id

theorem rxRule_sound (hw : valid → (s.ringW .rx).toNat < ringCap s.launch .rx) :
    AccessSound valid s (rxRule s) := by
  unfold rxRule
  split
  · exact devRead_sound fun _ => putByte_sound hw
  · exact KeepsRegisters.refl s

theorem txRule_sound (hr : valid → (s.ringR .tx).toNat < ringCap s.launch .tx) :
    AccessSound valid s (txRule s) := by
  unfold txRule getByte
  split
  · split
    · unfold readRingSlot
      split
      · exact AccessSound.of_keeps (t := s.release .tx) (.of_stored rfl rfl id) (devWrite_hosts_sound rfl)
      · next hout => exact fun hv => hout (hr hv)
    · exact devWrite_hosts_sound rfl
  · exact KeepsRegisters.refl s

/-- A put into the RX ring leaves the read index of the TX ring, which is apart from it (R102, R277). -/
theorem putByte_rx_ringR_tx {t : State} {b : Byte} (hl : s.launch.wellFormed = true)
    (h : putByte s .rx b = .ok t) : t.ringR .tx = s.ringR .tx := by
  have hap := rings_apart hl
  have hcap := ringCap_bounds hl .rx
  unfold putByte at h
  split at h
  · cases h; rfl
  · obtain ⟨u, hu, rfl⟩ := map_eq_ok.mp h
    obtain ⟨hi, rfl⟩ := writeRingSlot_eq_ok.mp hu
    simp only [ringCap] at hi hcap
    simp only [State.publish, State.setRingW, State.ringR, ringBase, ringSlotAddr]
    rw [memRead4_memWrite4_disjoint (by omega), memRead4_memSet_disjoint (by omega)]

theorem rxRule_ringR_tx {t : State} (hl : s.launch.wellFormed = true) (h : rxRule s = .ok t) :
    t.ringR .tx = s.ringR .tx := by
  unfold rxRule at h
  split at h
  · obtain ⟨⟨v, u⟩, hu, hput⟩ := bind_eq_ok.mp h
    obtain ⟨-, hu⟩ := devRead_eq_ok.mp hu
    cases hu
    exact putByte_rx_ringR_tx (s := s.afterRead .uartData) hl hput
  · cases h; rfl

/-- One IRQE step: the transmit rule finds the TX ring as it was, whatever the receive rule did (R276, R307). -/
theorem irqeStep_sound (s : State) : AccessSound (ringsInRange s = true) s (irqeStep s) := by
  unfold irqeStep
  split
  · have hcount : SameFixed .tickCount s.tickCount (s.tickCount + 1) := by
      have hnone : Slot.fixedMask .tickCount = 0 := by decide
      intro j hj
      simp [hnone] at hj
    exact KeepsRegisters.trans (.setStored (fun _ => hcount) (by decide) (by decide) (by decide))
      (.of_stored rfl rfl id)
  · have hrx : AccessSound (ringsInRange s = true) s (rxRule s) := rxRule_sound fun hv => (ringIndices_lt hv .rx).1
    refine bind_sound hrx fun t ht => txRule_sound fun hv => ?_
    have hl : s.launch.wellFormed = true := by
      simp only [ringsInRange, Bool.and_eq_true] at hv
      exact hv.1.1
    have hkeep : KeepsRegisters s t := by rw [ht] at hrx; exact hrx
    rw [rxRule_ringR_tx hl ht, hkeep.launch]
    exact (ringIndices_lt hv .tx).2

/-! ### Devices and WAKE -/

/-- SWS is no field that a reserved code is checked in (R53). -/
theorem reservedCode_withField_sws (w : Word) (v : BitVec 2) :
    Slot.reservedCode .clkCfgr (withField w 2 v) = Slot.reservedCode .clkCfgr w := by
  simp only [Slot.reservedCode]
  rw [fieldOf_withField_apart, fieldOf_withField_apart, fieldOf_withField_apart, fieldOf_withField_apart] <;> omega

theorem reservedCode_withField_sw {w : Word} {v : BitVec 2} (hv : v ≠ 3)
    (h : Slot.reservedCode .clkCfgr w = false) : Slot.reservedCode .clkCfgr (withField w 0 v) = false := by
  simp only [Slot.reservedCode] at h ⊢
  rw [fieldOf_withField_same _ _ _ (by omega), fieldOf_withField_apart, fieldOf_withField_apart,
    fieldOf_withField_apart]
  · simp_all
  all_goals omega

theorem wordClear_zero {r : Slot} (h : r.hardwired = 0) : WordClear r 0 := ⟨BitVec.zero_and, by rw [h]; rfl⟩

namespace KeepsRegisters

theorem clkswStep (s : State) : KeepsRegisters s (clkswStep s) := by
  refine setStored_clkCfgr (sameFixed_withField _ _ (by omega) (by decide)) fun hlegal => ?_
  obtain ⟨hcode, -⟩ := clockCodesLegal_iff.mp hlegal
  have hsw : fieldOf s.clkCfgr 0 2 ≠ 3 := by
    intro h3
    simp [Slot.reservedCode, h3] at hcode
  exact ⟨(reservedCode_withField_sws _ _).trans hcode, by rwa [fieldOf_withField_same _ _ _ (by omega)]⟩

theorem urxStep (s : State) : KeepsRegisters s (urxStep s) := by
  unfold Machine.urxStep
  split
  · exact refl s
  · next b rest _ =>
    split
    · exact (uartStat_withBit s 2 true (by omega) (by decide)).trans (of_stored rfl rfl id)
    · have hbyte : KeepsRegisters s { s with rxData := b } := by
        simpa [State.setStored] using
          setStored (s := s) (r := .uartData) (w := b.setWidth 32) (by simp) (by decide) (by decide) (by decide)
      exact (hbyte.trans (uartStat_withBit _ 0 true (by omega) (by decide))).trans (of_stored rfl rfl id)

theorem clkCr_clearPllOn (s : State) : KeepsRegisters s (s.setStored .clkCr (withBit s.clkCr 16 false)) := by
  refine setStored_clkCr (sameFixed_withBit _ _ (by omega) (by decide)) fun hon => ?_
  rw [getLsbD_withBit _ _ _ _ (by omega), if_pos rfl] at hon
  cases hon

/-- CLK_CFGR with SW and SWS back at 0 has legal codes where the prescalers' were (R205). -/
theorem clkCfgr_revert (s : State) :
    KeepsRegisters s (s.setStored .clkCfgr (withField (withField s.clkCfgr 0 0#2) 2 0#2)) := by
  refine setStored_clkCfgr ((sameFixed_withField _ _ (by omega) (by decide)).trans
    (sameFixed_withField _ _ (by omega) (by decide))) fun hlegal => ?_
  obtain ⟨hcode, -⟩ := clockCodesLegal_iff.mp hlegal
  refine ⟨?_, by rw [fieldOf_withField_same _ _ _ (by omega)]; decide⟩
  rw [reservedCode_withField_sws]
  exact reservedCode_withField_sw (by decide) hcode

/-- WAKE from stop keeps the clock, or takes it back to the internal oscillator with the PLL off (R205). -/
theorem wakeFromStop (s : State) : KeepsRegisters s (wakeFromStop s) := by
  unfold Machine.wakeFromStop
  cases s.launch.stopPolicy with
  | retain => exact of_stored rfl rfl nofun
  | revertToInternal =>
    have hclk := (clkCfgr_revert s).trans <| (clkCr_clearPllOn _).trans <|
      (clkCr_withBit _ 17 false (by omega) (by omega) (by decide)).trans <|
      (clkCr_withBit _ 8 false (by omega) (by omega) (by decide)).trans <|
      clkCr_withBit _ 9 false (by omega) (by omega) (by decide)
    exact hclk.trans (of_stored rfl rfl nofun)

/-- WAKE from standby gives the reset values of R340, whatever the draws are (R206). -/
theorem wakeFromStandby (s : State) : KeepsRegisters s (wakeFromStandby s) where
  launch := rfl
  codes _ := clockCodesLegal_iff.mpr
    ⟨(by decide : Slot.reservedCode .clkCfgr 0 = false), (by decide : fieldOf (0 : Word) 2 2 ≠ 3)⟩
  reserved _ := by
    refine reservedBitsClear_iff.mpr fun r => ?_
    cases r
    case scratch => exact ⟨BitVec.and_zero, BitVec.and_zero⟩
    case uartData => exact wordClear_uartData _
    case clkCr => exact (⟨by decide, by decide⟩ : WordClear .clkCr 3)
    case uartStat => exact (⟨by decide, by decide⟩ : WordClear .uartStat 2)
    all_goals exact wordClear_zero rfl
  pll _ := by
    have hoff : (3#32).getLsbD 16 = false := by decide
    refine pllConfigHeld_iff.mpr fun hdue => ?_
    rcases hdue with hon | hseq
    · exact absurd (hoff.symm.trans hon) (by decide)
    · cases hseq

theorem wakeStep (s : State) : KeepsRegisters s (wakeStep s) := by
  unfold Machine.wakeStep
  cases s.pstate with
  | run => exact refl s
  | stop => exact wakeFromStop s
  | standby => exact wakeFromStandby s

theorem takeMove (s : State) : KeepsRegisters s s.takeMove := by
  unfold State.takeMove
  split
  · exact of_stored rfl rfl id
  · exact of_stored rfl rfl id

end KeepsRegisters

/-! ### One step -/

theorem microStepValid_of_commandValid {s : State} {i : Instr} (hb : s.busy = true)
    (hi : decode s.current.word = .ok i) (hc : commandValid s = true) (hr : ringsInRange s = true) :
    MicroStepValid i s := by
  refine ⟨?_, hr⟩
  simpa [commandValid, hb, hi] using hc

/-- HOST's step (R56, R321). -/
theorem hostStep_sound (s : State) :
    StepSound (commandValid s = true ∧ ringsInRange s = true) s (hostStep s) := by
  unfold hostStep
  split
  · next hb =>
    unfold hostMicroStep
    split
    · next i hi => exact (exec_sound i s).mono fun hv => microStepValid_of_commandValid hb hi hv.1 hv.2
    · exact KeepsRegisters.raise s _
  · exact commit_sound issue_sound

/-- The step of any move (R321). -/
theorem perform_sound (m : Move) (s : State) :
    StepSound (commandValid s = true ∧ ringsInRange s = true) s (perform m s) := by
  cases m with
  | host => exact hostStep_sound s
  | cseq => exact commit_sound (cseqStep_sound s)
  | irqe => exact (commit_sound (irqeStep_sound s)).mono And.right
  | osc => exact KeepsRegisters.clkCr_withBit s 9 true (by omega) (by omega) (by decide)
  | pll => exact KeepsRegisters.clkCr_withBit s 17 true (by omega) (by omega) (by decide)
  | clksw => exact KeepsRegisters.clkswStep s
  | tick => exact KeepsRegisters.of_stored rfl rfl id
  | utx => exact (KeepsRegisters.uartStat_withBit s 1 true (by omega) (by decide)).trans (.of_stored rfl rfl id)
  | urx => exact KeepsRegisters.urxStep s
  | wake => exact KeepsRegisters.wakeStep s
  | portCmd c => exact commit_sound cmdWrite_sound
  | portArg v => exact KeepsRegisters.of_stored rfl rfl id

theorem step_keepsRegisters {s t : State} (h : step s = .next t) : KeepsRegisters s t :=
  step_keeps (P := KeepsRegisters s) (fun u c hu => hu.trans (.raise u c)) (fun u hu => hu.trans (.takeMove u))
    (fun m u _ hu _ hm => hu.trans ((perform_sound m u).keeps hm)) (.refl s) h

theorem commandValid_takeMove (s : State) : commandValid s.takeMove = commandValid s := by
  unfold State.takeMove
  split <;> rfl

theorem ringsInRange_takeMove (s : State) : ringsInRange s.takeMove = ringsInRange s := by
  unfold State.takeMove
  split <;> rfl

theorem moveStep_progress {m : Move} {s : State} (hc : commandValid s = true) (hr : ringsInRange s = true) :
    ∃ t, moveStep m s = .next t := by
  cases hen : enabled m s
  · exact ⟨s, moveStep_eq_next.mpr (.inl ⟨hen, rfl⟩)⟩
  · obtain ⟨u, hu⟩ := (perform_sound m s).progress ⟨hc, hr⟩
    exact ⟨_, moveStep_eq_next.mpr (.inr ⟨hen, u, hu, rfl⟩)⟩

/-! ### The statements -/

/-- Settles O57: `KeepsRegisters` holds along every step. -/
theorem clockCodesStayLegal : Obligations.ClockCodesStayLegal := by
  unfold Obligations.ClockCodesStayLegal
  intro s t h
  obtain ⟨hlaunch, hcodes, hreserved, hpll⟩ := step_keepsRegisters h
  exact ⟨hlaunch, hcodes, hreserved, hpll⟩

/-- Settles O59: the move taken performs a sound step, and its stops are outside the valid states. -/
theorem noStopWithoutARecordedFault : Obligations.NoStopWithoutARecordedFault := by
  unfold Obligations.NoStopWithoutARecordedFault
  intro s hf hc hr
  obtain ⟨t, ht⟩ := moveStep_progress (m := s.nextMove) (s := s.takeMove)
    ((commandValid_takeMove s).trans hc) ((ringsInRange_takeMove s).trans hr)
  exact ⟨t, step_eq_next.mpr ⟨hf, ht⟩⟩

end Sys2Proof.Machine
end

section
/-! SUPPORT. What an agent's accesses may do, as one relation with the agent's rights (R36, R59, R231), and what every
access leaves: everything but register words and ring RAM. -/

namespace Sys2Proof.Machine

/-! ### Outcomes, as postconditions -/

/-- Whatever the access gives satisfies `Q`. -/
def Gives {α : Type} (x : Except Stop α) (Q : α → Prop) : Prop := ∀ a, x = .ok a → Q a

/-- Whatever next state the step answers satisfies `Q`. -/
def Leads (r : Result) (Q : State → Prop) : Prop := ∀ t, r = .next t → Q t

section

variable {α β : Type} {Q : β → Prop} {P : State → Prop}

theorem gives_ok {b : β} (h : Q b) : Gives (.ok b) Q := fun _ hb => Except.ok.inj hb ▸ h

theorem gives_error (e : Stop) : Gives (.error e) Q := nofun

theorem gives_bind {x : Except Stop α} {f : α → Except Stop β} (h : Gives x fun a => Gives (f a) Q) :
    Gives (x >>= f) Q := by
  intro b hb
  obtain ⟨a, ha, hfa⟩ := bind_eq_ok.mp hb
  exact h a ha b hfa

theorem gives_map {x : Except Stop α} {g : α → β} (h : Gives x fun a => Q (g a)) : Gives (x.map g) Q := by
  intro b hb
  obtain ⟨a, ha, rfl⟩ := map_eq_ok.mp hb
  exact h a ha

theorem Gives.ite {p : Prop} [Decidable p] {x y : Except Stop β} (hx : Gives x Q) (hy : Gives y Q) :
    Gives (if p then x else y) Q := by
  split
  · exact hx
  · exact hy

theorem Gives.mono {x : Except Stop β} {Q' : β → Prop} (h : Gives x Q) (himp : ∀ b, Q b → Q' b) : Gives x Q' :=
  fun b hb => himp b (h b hb)

theorem leads_next {t : State} (h : P t) : Leads (.next t) P := fun _ ht => Host.Outcome.next.inj ht ▸ h

theorem leads_fault (f : Fault) : Leads (.fault f) P := by simp [Leads]

theorem Leads.ite {p : Prop} [Decidable p] {r q : Result} (hr : Leads r P) (hq : Leads q P) :
    Leads (if p then r else q) P := by
  split
  · exact hr
  · exact hq

/-- A committed step leads where its access gives, or to the state with a fault recorded (R311). -/
theorem leads_commit {s : State} {x : Except Stop State} (hraise : ∀ c, P (s.raise c)) (hx : Gives x P) :
    Leads (commit s x) P := by
  intro t ht
  obtain hok | ⟨c, -, rfl⟩ := commit_eq_next.mp ht
  · exact hx t hok
  · exact hraise c

end

/-! ### Accesses and rights -/

/-- What an agent may write: register slots, and the indices of the rings (R36, R59, R231). -/
structure Rights where
  write : Slot → Prop
  indexW : RingId → Prop
  indexR : RingId → Prop

/-- A value that the ring rules write into an index of ring `k`: 0 at CHINIT, else the index after another (R230,
R257). -/
def IsIndex (l : Launch) (k : RingId) (v : Word) : Prop := v = 0 ∨ ∃ x, v = BitVec.ofNat 32 (nextIndex l k x)

theorem IsIndex.lt {l : Launch} {k : RingId} {v : Word} (h : IsIndex l k v) (hl : l.wellFormed = true) :
    v.toNat < ringCap l k := by
  obtain rfl | ⟨x, rfl⟩ := h
  · have := ringCap_bounds hl k
    change 0 < _
    omega
  · obtain ⟨hnat, hlt⟩ := nextIndex_toNat hl k x
    exact hnat.trans_lt hlt

/-- One access within the rights: none, a register read or write, a byte into a data slot, or an index write. -/
inductive Access (p : Rights) (s : State) : State → Prop
  | none : Access p s s
  | read (r : Slot) : Access p s (s.afterRead r)
  | write (r : Slot) (v : Word) (hr : p.write r) : Access p s (s.regWrite r v)
  | slot (k : RingId) (n : Nat) (b : Byte) (hn : n < ringCap s.launch k) :
      Access p s { s with mem := memSet s.mem (ringSlotAddr s.launch k n) b }
  | indexW (k : RingId) (v : Word) (hv : IsIndex s.launch k v) (hk : p.indexW k) : Access p s (s.setRingW k v)
  | indexR (k : RingId) (v : Word) (hv : IsIndex s.launch k v) (hk : p.indexR k) : Access p s (s.setRingR k v)

/-- What no access changes. -/
structure AccessFrame (s t : State) : Prop where
  launch : t.launch = s.launch
  arg : t.arg = s.arg
  res : t.res = s.res
  busy : t.busy = s.busy
  fault : t.fault = s.fault
  seqState : t.seqState = s.seqState
  pstate : t.pstate = s.pstate
  hpc : t.hpc = s.hpc
  current : t.current = s.current
  tickCount : t.tickCount = s.tickCount
  tickPend : t.tickPend = s.tickPend
  rxData : t.rxData = s.rxData
  chen : t.chen = s.chen
  imask : t.imask = s.imask
  lineIn : t.lineIn = s.lineIn
  lineOut : t.lineOut = s.lineOut

theorem AccessFrame.refl (s : State) : AccessFrame s s := by constructor <;> rfl

theorem AccessFrame.trans {s t u : State} (h : AccessFrame s t) (h' : AccessFrame t u) : AccessFrame s u where
  launch := h'.launch.trans h.launch
  arg := h'.arg.trans h.arg
  res := h'.res.trans h.res
  busy := h'.busy.trans h.busy
  fault := h'.fault.trans h.fault
  seqState := h'.seqState.trans h.seqState
  pstate := h'.pstate.trans h.pstate
  hpc := h'.hpc.trans h.hpc
  current := h'.current.trans h.current
  tickCount := h'.tickCount.trans h.tickCount
  tickPend := h'.tickPend.trans h.tickPend
  rxData := h'.rxData.trans h.rxData
  chen := h'.chen.trans h.chen
  imask := h'.imask.trans h.imask
  lineIn := h'.lineIn.trans h.lineIn
  lineOut := h'.lineOut.trans h.lineOut

theorem AccessFrame.regWrite (s : State) (r : Slot) (v : Word) : AccessFrame s (s.regWrite r v) := by
  constructor <;> simp

theorem Access.frame {p : Rights} {s t : State} (h : Access p s t) : AccessFrame s t := by
  cases h with
  | none => exact .refl s
  | read r => constructor <;> simp
  | write r v _ => exact .regWrite s r v
  | slot => constructor <;> rfl
  | indexW => constructor <;> rfl
  | indexR => constructor <;> rfl

/-! ### The procedures as accesses -/

section

variable {α : Type} {s : State} {Q : α → Prop}

theorem gives_devRead {r : Slot} {f : Word × State → Except Stop α} (h : ∀ v, Gives (f (v, s.afterRead r)) Q) :
    Gives (devRead s r >>= f) Q := by
  refine gives_bind fun a ha => ?_
  obtain ⟨-, rfl⟩ := devRead_eq_ok.mp ha
  exact h _

theorem gives_hostRead {n : Nat} {f : Word × State → Except Stop α}
    (h : ∀ v r, Gives (f (v, s.afterRead r)) Q) : Gives (hostRead s n >>= f) Q := by
  refine gives_bind fun a ha => ?_
  obtain ⟨r, -, -, hr⟩ := hostRead_eq_ok.mp ha
  obtain ⟨-, rfl⟩ := devRead_eq_ok.mp hr
  exact h _ r

theorem gives_devWrite {r : Slot} {v : Word} {P : State → Prop} (h : P (s.regWrite r v)) :
    Gives (devWrite s r v) P := by
  intro t ht
  obtain ⟨-, rfl⟩ := devWrite_eq_ok.mp ht
  exact h

theorem gives_hostWrite {n : Nat} {v : Word} {P : State → Prop} (h : ∀ r, r.notHosts = false → P (s.regWrite r v)) :
    Gives (hostWrite s n v) P := by
  intro t ht
  obtain ⟨r, -, hr, -, hw⟩ := hostWrite_eq_ok.mp ht
  exact gives_devWrite (h r hr) t hw

theorem gives_writeRingSlot {k : RingId} {n : Nat} {b : Byte} {P : State → Prop}
    (h : n < ringCap s.launch k → P { s with mem := memSet s.mem (ringSlotAddr s.launch k n) b }) :
    Gives (writeRingSlot s k n b) P := by
  intro t ht
  obtain ⟨hn, rfl⟩ := writeRingSlot_eq_ok.mp ht
  exact h hn

end

end Sys2Proof.Machine
end

section
/-! SUPPORT. What HOST's micro-step of a command can do, said once for all commands (R56): it raises a fault, or makes
one access within HOST's rights and then completes the command, goes to a micro-step of it, or starts CSEQ. -/

namespace Sys2Proof.Machine

/-- The commands that a channel excludes past their ms1, where they check CHEN (R231, R250). -/
def channelExcludes : Instr → Bool
  | .uinit => true
  | .chinit => true
  | .pputc _ => true
  | .pgetc => true
  | .tryput .rx _ => true
  | .tryget .tx => true
  | _ => false

/-- The commands that start CSEQ and wait for it at ms2 (R182, R200). -/
def startsSequencer : Instr → Bool
  | .bringup => true
  | .pdown _ => true
  | _ => false

/-- Command `i` is past the check that keeps it out of a block with a channel. -/
def PastChannelCheck (i : Instr) (s : State) : Prop := channelExcludes i = true ∧ s.current.ms ≠ .ms1

/-- HOST's rights in command `i`: its own slots (R36), and the indices W_RX and R_TX, which are IRQE's once there is a
channel, only past the check of CHEN (R231). -/
def hostRights (i : Instr) (s : State) : Rights where
  write r := r.notHosts = false
  indexW k := k = .rx → PastChannelCheck i s
  indexR k := k = .tx → PastChannelCheck i s

/-- How a micro-step of command `i` ends after its access, which left state `u`. -/
inductive MicroStepEnd (i : Instr) (u : State) : State → Prop
  | complete (res : Word) (chen imask : Bool) :
      MicroStepEnd i u { u.doneWith res with chen := chen, imask := imask }
  | next (c : Current) (hword : c.word = u.current.word) (hms : c.ms.number ≤ (lastMicroStep i).number) :
      MicroStepEnd i u { u with current := c }
  | start (q : SeqState) (hi : startsSequencer i = true) : MicroStepEnd i u { u.goto .ms2 with seqState := q }

/-- HOST's micro-step of command `i` takes `s` to the state. -/
inductive HostStep (i : Instr) (s : State) : State → Prop
  | raise (c : FaultCode) : HostStep i s (s.raise c)
  | run {u t : State} (access : Access (hostRights i s) s u) (finish : MicroStepEnd i u t) : HostStep i s t

section

variable {i : Instr} {s u : State}

theorem MicroStepEnd.done : MicroStepEnd i u u.done := .complete u.res u.chen u.imask

theorem MicroStepEnd.doneWith (r : Word) : MicroStepEnd i u (u.doneWith r) := .complete r u.chen u.imask

theorem MicroStepEnd.goto {m : MicroStep} (hm : m.number ≤ (lastMicroStep i).number) : MicroStepEnd i u (u.goto m) :=
  .next _ rfl hm

/-- A micro-step that leaves the command where it is: a spin (R13). -/
theorem MicroStepEnd.spin (hm : u.current.ms.number ≤ (lastMicroStep i).number) : MicroStepEnd i u u :=
  .next u.current rfl hm

theorem MicroStepEnd.ite {p : Prop} [Decidable p] {t t' : State} (ht : MicroStepEnd i u t)
    (ht' : MicroStepEnd i u t') : MicroStepEnd i u (if p then t else t') := by
  split
  · exact ht
  · exact ht'

/-! ### The shapes of a micro-step -/

/-- A micro-step without an access. -/
theorem host_plain {t : State} (h : MicroStepEnd i s t) : Leads (.next t) (HostStep i s) :=
  leads_next (.run .none h)

theorem host_raise (c : FaultCode) : Leads (commit s (.error (.raise c))) (HostStep i s) :=
  leads_commit .raise (gives_error _)

theorem host_hostRead {n : Nat} {f : Word × State → State}
    (h : ∀ v r, MicroStepEnd i (s.afterRead r) (f (v, s.afterRead r))) :
    Leads (commit s (hostRead s n >>= fun p => pure (f p))) (HostStep i s) :=
  leads_commit .raise (gives_hostRead fun v r => gives_ok (.run (.read r) (h v r)))

theorem host_devRead {r : Slot} {f : Word × State → State}
    (h : ∀ v, MicroStepEnd i (s.afterRead r) (f (v, s.afterRead r))) :
    Leads (commit s (devRead s r >>= fun p => pure (f p))) (HostStep i s) :=
  leads_commit .raise (gives_devRead fun v => gives_ok (.run (.read r) (h v)))

theorem host_hostWrite {n : Nat} {v : Word} {f : State → State} (h : ∀ t, MicroStepEnd i t (f t)) :
    Leads (commit s (hostWrite s n v >>= fun t => pure (f t))) (HostStep i s) :=
  leads_commit .raise <| gives_bind <| gives_hostWrite fun r hr => gives_ok (.run (.write r v hr) (h _))

theorem host_devWrite {r : Slot} {v : Word} {f : State → State} (hr : r.notHosts = false)
    (h : ∀ t, MicroStepEnd i t (f t)) :
    Leads (commit s (devWrite s r v >>= fun t => pure (f t))) (HostStep i s) :=
  leads_commit .raise <| gives_bind <| gives_devWrite <| gives_ok (.run (.write r v hr) (h _))

theorem host_writeRingSlot {k : RingId} {n : Nat} {b : Byte} {f : State → State} (h : ∀ t, MicroStepEnd i t (f t)) :
    Leads (commit s (writeRingSlot s k n b >>= fun t => pure (f t))) (HostStep i s) :=
  leads_commit .raise <| gives_bind <| gives_writeRingSlot fun hn => gives_ok (.run (.slot k n b hn) (h _))

theorem host_readRingSlot {k : RingId} {n : Nat} {f : Byte → State} (h : ∀ b, MicroStepEnd i s (f b)) :
    Leads (commit s (readRingSlot s k n >>= fun b => pure (f b))) (HostStep i s) :=
  leads_commit .raise <| gives_bind fun b _ => gives_ok (.run .none (h b))

theorem host_indexW {k : RingId} {v : Word} {t : State} (hv : IsIndex s.launch k v)
    (hk : k = .rx → PastChannelCheck i s) (h : MicroStepEnd i (s.setRingW k v) t) :
    Leads (.next t) (HostStep i s) :=
  leads_next (.run (.indexW k v hv hk) h)

theorem host_indexR {k : RingId} {v : Word} {t : State} (hv : IsIndex s.launch k v)
    (hk : k = .tx → PastChannelCheck i s) (h : MicroStepEnd i (s.setRingR k v) t) :
    Leads (.next t) (HostStep i s) :=
  leads_next (.run (.indexR k v hv hk) h)

theorem isIndex_zero {l : Launch} {k : RingId} : IsIndex l k 0 := .inl rfl

theorem isIndex_nextIndex {l : Launch} {k : RingId} {x : Word} : IsIndex l k (BitVec.ofNat 32 (nextIndex l k x)) :=
  .inr ⟨x, rfl⟩

theorem pastChannelCheck {m : MicroStep} (hi : channelExcludes i = true) (hms : s.current.ms = m) (hm : m ≠ .ms1) :
    PastChannelCheck i s := ⟨hi, hms ▸ hm⟩

end

/-! ### Command by command -/

theorem execRd_host (slot : Nat) (s : State) : Leads (execRd slot s) (HostStep (.rd slot) s) := by
  unfold execRd
  cases s.current.ms
  case ms1 => exact host_hostRead fun v _ => .doneWith v
  all_goals exact leads_fault _

theorem execWr_host (slot : Nat) (s : State) : Leads (execWr slot s) (HostStep (.wr slot) s) := by
  unfold execWr
  cases s.current.ms
  case ms1 => exact host_hostWrite fun _ => .done
  all_goals exact leads_fault _

theorem execRdbit_host (slot bit : Nat) (s : State) :
    Leads (execRdbit slot bit s) (HostStep (.rdbit slot bit) s) := by
  unfold execRdbit
  cases s.current.ms
  case ms1 => exact host_hostRead fun v _ => .doneWith _
  all_goals exact leads_fault _

theorem execWrbit_host (slot bit : Nat) (v : Bool) (s : State) :
    Leads (execWrbit slot bit v s) (HostStep (.wrbit slot bit v) s) := by
  unfold execWrbit
  cases s.current.ms
  case ms1 => exact host_hostRead fun _ _ => .next _ rfl (Nat.le_of_ble_eq_true rfl)
  case ms2 => exact host_hostWrite fun _ => .done
  all_goals exact leads_fault _

theorem execPoll_host (slot bit : Nat) (v : Bool) (s : State) :
    Leads (execPoll slot bit v s) (HostStep (.poll slot bit v) s) := by
  unfold execPoll
  cases hms : s.current.ms
  case ms1 => exact host_hostRead fun _ _ => .ite .done (.spin (by simp [hms, lastMicroStep]))
  all_goals exact leads_fault _

theorem execTryput_host (k : RingId) (b : Byte) (s : State) :
    Leads (execTryput k b s) (HostStep (.tryput k b) s) := by
  unfold execTryput
  cases hms : s.current.ms
  case ms1 => exact .ite (host_raise _) (host_plain (.next _ rfl (Nat.le_of_ble_eq_true rfl)))
  case ms2 =>
    exact .ite (host_plain (.doneWith _))
      (host_writeRingSlot fun _ => .goto (Nat.le_of_ble_eq_true rfl))
  case ms3 =>
    refine host_indexW isIndex_nextIndex (fun hk => ?_) (.doneWith _)
    subst hk
    exact pastChannelCheck rfl hms (by decide)
  all_goals exact leads_fault _

theorem execTryget_host (k : RingId) (s : State) : Leads (execTryget k s) (HostStep (.tryget k) s) := by
  unfold execTryget
  cases hms : s.current.ms
  case ms1 => exact .ite (host_raise _) (host_plain (.next _ rfl (Nat.le_of_ble_eq_true rfl)))
  case ms2 =>
    exact .ite (host_plain (.doneWith _))
      (host_readRingSlot fun _ => .next _ rfl (Nat.le_of_ble_eq_true rfl))
  case ms3 =>
    refine host_indexR isIndex_nextIndex (fun hk => ?_) (.doneWith _)
    subst hk
    exact pastChannelCheck rfl hms (by decide)
  all_goals exact leads_fault _

theorem execIsfull_host (k : RingId) (s : State) : Leads (execIsfull k s) (HostStep (.isfull k) s) := by
  unfold execIsfull
  cases s.current.ms
  case ms1 => exact host_plain (.next _ rfl (Nat.le_of_ble_eq_true rfl))
  case ms2 => exact host_plain (.doneWith _)
  all_goals exact leads_fault _

theorem execIsempty_host (k : RingId) (s : State) : Leads (execIsempty k s) (HostStep (.isempty k) s) := by
  unfold execIsempty
  cases s.current.ms
  case ms1 => exact host_plain (.next _ rfl (Nat.le_of_ble_eq_true rfl))
  case ms2 => exact host_plain (.doneWith _)
  all_goals exact leads_fault _

theorem execCount_host (k : RingId) (s : State) : Leads (execCount k s) (HostStep (.count k) s) := by
  unfold execCount
  cases s.current.ms
  case ms1 => exact host_plain (.next _ rfl (Nat.le_of_ble_eq_true rfl))
  case ms2 => exact host_plain (.doneWith _)
  all_goals exact leads_fault _

theorem execUinit_host (s : State) : Leads (execUinit s) (HostStep .uinit s) := by
  unfold execUinit
  cases s.current.ms
  case ms1 => exact .ite (host_raise _) (host_devRead fun _ => .next _ rfl (Nat.le_of_ble_eq_true rfl))
  case ms2 => exact host_devWrite rfl fun _ => .goto (Nat.le_of_ble_eq_true rfl)
  case ms3 => exact host_devWrite rfl fun _ => .goto (Nat.le_of_ble_eq_true rfl)
  case ms4 => exact host_devWrite rfl fun _ => .done
  all_goals exact leads_fault _

theorem execChinit_host (s : State) : Leads (execChinit s) (HostStep .chinit s) := by
  have hpast : ∀ {m : MicroStep}, s.current.ms = m → m ≠ .ms1 → PastChannelCheck .chinit s := pastChannelCheck rfl
  unfold execChinit
  cases hms : s.current.ms
  case ms1 => exact .ite (host_raise _) (host_devRead fun _ => .next _ rfl (Nat.le_of_ble_eq_true rfl))
  case ms2 => exact host_devWrite rfl fun _ => .goto (Nat.le_of_ble_eq_true rfl)
  case ms3 => exact host_devWrite rfl fun _ => .goto (Nat.le_of_ble_eq_true rfl)
  case ms4 => exact host_indexW isIndex_zero (fun _ => hpast hms nofun) (.goto (Nat.le_of_ble_eq_true rfl))
  case ms5 => exact host_indexR isIndex_zero (fun _ => hpast hms nofun) (.goto (Nat.le_of_ble_eq_true rfl))
  case ms6 => exact host_indexW isIndex_zero (fun _ => hpast hms nofun) (.goto (Nat.le_of_ble_eq_true rfl))
  case ms7 => exact host_indexR isIndex_zero (fun _ => hpast hms nofun) (.goto (Nat.le_of_ble_eq_true rfl))
  case ms8 => exact host_devWrite rfl fun _ => .goto (Nat.le_of_ble_eq_true rfl)
  case ms9 => exact host_plain (.complete s.res true s.imask)

theorem execPputc_host (b : Byte) (s : State) : Leads (execPputc b s) (HostStep (.pputc b) s) := by
  unfold execPputc
  cases hms : s.current.ms
  case ms1 =>
    exact .ite (host_raise _) (host_devRead fun _ =>
      .ite (.goto (Nat.le_of_ble_eq_true rfl)) (.spin (by simp [hms, lastMicroStep, MicroStep.number])))
  case ms2 => exact host_devWrite rfl fun _ => .done
  all_goals exact leads_fault _

theorem execPgetc_host (s : State) : Leads (execPgetc s) (HostStep .pgetc s) := by
  unfold execPgetc
  cases hms : s.current.ms
  case ms1 =>
    exact .ite (host_raise _) (host_devRead fun _ =>
      .ite (.goto (Nat.le_of_ble_eq_true rfl)) (.spin (by simp [hms, lastMicroStep, MicroStep.number])))
  case ms2 => exact host_devRead fun _ => .doneWith _
  all_goals exact leads_fault _

theorem execPutc_host (b : Byte) (s : State) : Leads (execPutc b s) (HostStep (.putc b) s) := by
  unfold execPutc
  cases s.current.ms
  case ms1 => exact .ite (host_plain (.next _ rfl (Nat.le_of_ble_eq_true rfl))) (host_raise _)
  case ms2 =>
    exact .ite (host_plain (.goto (Nat.le_of_ble_eq_true rfl)))
      (host_writeRingSlot fun _ => .goto (Nat.le_of_ble_eq_true rfl))
  case ms3 => exact host_indexW (k := .tx) isIndex_nextIndex nofun (.goto (Nat.le_of_ble_eq_true rfl))
  case ms4 => exact host_devRead fun _ => .next _ rfl (Nat.le_of_ble_eq_true rfl)
  case ms5 => exact host_devWrite rfl fun _ => .done
  all_goals exact leads_fault _

theorem execGetc_host (s : State) : Leads (execGetc s) (HostStep .getc s) := by
  unfold execGetc
  cases s.current.ms
  case ms1 => exact .ite (host_plain (.next _ rfl (Nat.le_of_ble_eq_true rfl))) (host_raise _)
  case ms2 =>
    exact .ite (host_plain (.goto (Nat.le_of_ble_eq_true rfl)))
      (host_readRingSlot fun _ => .next _ rfl (Nat.le_of_ble_eq_true rfl))
  case ms3 => exact host_indexR (k := .rx) isIndex_nextIndex nofun (.doneWith _)
  all_goals exact leads_fault _

theorem execBringup_host (s : State) : Leads (execBringup s) (HostStep .bringup s) := by
  unfold execBringup
  cases hms : s.current.ms
  case ms1 => exact host_plain (.start _ rfl)
  case ms2 => exact host_plain (.ite .done (.spin (by simp [hms, lastMicroStep])))
  all_goals exact leads_fault _

theorem execPdown_host (mode : PowerMode) (s : State) : Leads (execPdown mode s) (HostStep (.pdown mode) s) := by
  unfold execPdown
  cases hms : s.current.ms
  case ms1 => exact host_plain (.start _ rfl)
  case ms2 => exact host_plain (.ite .done (.spin (by simp [hms, lastMicroStep])))
  all_goals exact leads_fault _

theorem execIrqoff_host (s : State) : Leads (execIrqoff s) (HostStep .irqoff s) := by
  unfold execIrqoff
  cases s.current.ms
  case ms1 => exact host_plain (.complete s.res s.chen true)
  all_goals exact leads_fault _

theorem execIrqon_host (s : State) : Leads (execIrqon s) (HostStep .irqon s) := by
  unfold execIrqon
  cases s.current.ms
  case ms1 => exact host_plain (.complete s.res s.chen false)
  all_goals exact leads_fault _

theorem execRdtick_host (s : State) : Leads (execRdtick s) (HostStep .rdtick s) := by
  unfold execRdtick
  cases s.current.ms
  case ms1 => exact host_plain (.doneWith _)
  all_goals exact leads_fault _

/-- HOST's micro-step of any command (R56). -/
theorem exec_host (i : Instr) (s : State) : Leads (exec i s) (HostStep i s) := by
  cases i with
  | rd slot => exact execRd_host slot s
  | wr slot => exact execWr_host slot s
  | rdbit slot bit => exact execRdbit_host slot bit s
  | wrbit slot bit v => exact execWrbit_host slot bit v s
  | poll slot bit v => exact execPoll_host slot bit v s
  | tryput k b => exact execTryput_host k b s
  | tryget k => exact execTryget_host k s
  | isfull k => exact execIsfull_host k s
  | isempty k => exact execIsempty_host k s
  | count k => exact execCount_host k s
  | uinit => exact execUinit_host s
  | chinit => exact execChinit_host s
  | pputc b => exact execPputc_host b s
  | pgetc => exact execPgetc_host s
  | putc b => exact execPutc_host b s
  | getc => exact execGetc_host s
  | bringup => exact execBringup_host s
  | pdown mode => exact execPdown_host mode s
  | irqoff => exact execIrqoff_host s
  | irqon => exact execIrqon_host s
  | rdtick => exact execRdtick_host s

end Sys2Proof.Machine
end

section
/-! SUPPORT. Ring indices under an access: what an index write sets and what it leaves, and that every access keeps
canonical memory with indices in range (R61, R102). -/

namespace Sys2Proof.Machine

/-! ### Reading an index after a write -/

section

variable {s : State} (hl : s.launch.wellFormed = true)
include hl

/-- The index words and data slots of the two rings lie apart (R102). -/
theorem ringRegions_apart {k q : RingId} (hne : q ≠ k) :
    ringBase s.launch q + 8 + ringCap s.launch q ≤ ringBase s.launch k ∨
      ringBase s.launch k + 8 + ringCap s.launch k ≤ ringBase s.launch q := by
  have hap := rings_apart hl
  cases k <;> cases q
  case rx.rx => exact absurd rfl hne
  case tx.tx => exact absurd rfl hne
  all_goals
    simp only [ringBase, ringCap]
    omega

theorem ringW_setRingW_ne {k q : RingId} (hne : q ≠ k) (v : Word) : (s.setRingW k v).ringW q = s.ringW q := by
  have hap := ringRegions_apart hl hne
  exact memRead4_memWrite4_disjoint (b := ringBase s.launch q) (by omega) _ _

theorem ringR_setRingR_ne {k q : RingId} (hne : q ≠ k) (v : Word) : (s.setRingR k v).ringR q = s.ringR q := by
  have hap := ringRegions_apart hl hne
  exact memRead4_memWrite4_disjoint (b := ringBase s.launch q + 4) (by omega) _ _

theorem ringR_setRingW (k q : RingId) (v : Word) : (s.setRingW k v).ringR q = s.ringR q := by
  refine memRead4_memWrite4_disjoint (b := ringBase s.launch q + 4) ?_ _ _
  by_cases hq : q = k
  · subst hq; omega
  · have hap := ringRegions_apart hl hq
    omega

theorem ringW_setRingR (k q : RingId) (v : Word) : (s.setRingR k v).ringW q = s.ringW q := by
  refine memRead4_memWrite4_disjoint (b := ringBase s.launch q) ?_ _ _
  by_cases hq : q = k
  · subst hq; omega
  · have hap := ringRegions_apart hl hq
    omega

/-- A byte written into a data slot leaves every index (R102). -/
theorem ringIndices_memSet_slot {k : RingId} {n : Nat} (hn : n < ringCap s.launch k) (b : Byte) (q : RingId) :
    State.ringW { s with mem := memSet s.mem (ringSlotAddr s.launch k n) b } q = s.ringW q ∧
      State.ringR { s with mem := memSet s.mem (ringSlotAddr s.launch k n) b } q = s.ringR q := by
  have haddr : ringSlotAddr s.launch k n = ringBase s.launch k + 8 + n := rfl
  have hout : ringSlotAddr s.launch k n < ringBase s.launch q ∨
      ringBase s.launch q + 8 ≤ ringSlotAddr s.launch k n := by
    by_cases hne : q = k
    · subst hne; omega
    · have hap := ringRegions_apart hl hne
      omega
  exact ⟨memRead4_memSet_disjoint (b := ringBase s.launch q) (by omega) _ _,
    memRead4_memSet_disjoint (b := ringBase s.launch q + 4) (by omega) _ _⟩

end

theorem ringW_setRingW_same {s : State} (hm : Memory.wf s.mem = true) (k : RingId) (v : Word) :
    (s.setRingW k v).ringW k = v := memRead4_memWrite4_same hm _ _

theorem ringR_setRingR_same {s : State} (hm : Memory.wf s.mem = true) (k : RingId) (v : Word) :
    (s.setRingR k v).ringR k = v := memRead4_memWrite4_same hm _ _

/-! ### Indices an agent may not write -/

theorem Access.ringW {p : Rights} {s t : State} {k : RingId} (h : Access p s t) (hl : s.launch.wellFormed = true)
    (hk : ¬ p.indexW k) : t.ringW k = s.ringW k := by
  cases h with
  | none => rfl
  | read r => simp [State.ringW]
  | write r v _ => simp [State.ringW]
  | slot q n b hn => exact (ringIndices_memSet_slot hl hn b k).1
  | indexW q v _ hq =>
    have hkq : k ≠ q := by rintro rfl; exact hk hq
    exact ringW_setRingW_ne hl hkq v
  | indexR q v _ _ => exact ringW_setRingR hl q k v

theorem Access.ringR {p : Rights} {s t : State} {k : RingId} (h : Access p s t) (hl : s.launch.wellFormed = true)
    (hk : ¬ p.indexR k) : t.ringR k = s.ringR k := by
  cases h with
  | none => rfl
  | read r => simp [State.ringR]
  | write r v _ => simp [State.ringR]
  | slot q n b hn => exact (ringIndices_memSet_slot hl hn b k).2
  | indexW q v _ _ => exact ringR_setRingW hl q k v
  | indexR q v _ hq =>
    have hkq : k ≠ q := by rintro rfl; exact hk hq
    exact ringR_setRingR_ne hl hkq v

/-! ### Indices in range -/

/-- Ring RAM is canonical, the launch well formed, and every index names a slot (R61). -/
structure RingsSound (s : State) : Prop where
  canonical : Memory.wf s.mem = true
  launch : s.launch.wellFormed = true
  indexW : ∀ k, (s.ringW k).toNat < ringCap s.launch k
  indexR : ∀ k, (s.ringR k).toNat < ringCap s.launch k

theorem ringsInRange_iff {s : State} : ringsInRange s = true ↔ s.launch.wellFormed = true ∧
    ∀ k, (s.ringW k).toNat < ringCap s.launch k ∧ (s.ringR k).toNat < ringCap s.launch k := by
  refine ⟨fun h => ⟨?_, ringIndices_lt h⟩, fun ⟨hl, h⟩ => ?_⟩
  · simp only [ringsInRange, Bool.and_eq_true] at h
    exact h.1.1
  · simp [ringsInRange, ringInRange, hl, h]

theorem ringsSound_iff {s : State} : RingsSound s ↔ Memory.wf s.mem = true ∧ ringsInRange s = true := by
  rw [ringsInRange_iff]
  exact ⟨fun h => ⟨h.canonical, h.launch, fun k => ⟨h.indexW k, h.indexR k⟩⟩,
    fun ⟨hm, hl, h⟩ => ⟨hm, hl, fun k => (h k).1, fun k => (h k).2⟩⟩

/-- What writes neither ring RAM nor the launch parameters keeps the rings. -/
theorem RingsSound.of_mem {s t : State} (hs : RingsSound s) (hlaunch : t.launch = s.launch) (hmem : t.mem = s.mem) :
    RingsSound t := by
  obtain ⟨hm, hl, hw, hr⟩ := hs
  constructor <;> simpa [State.ringW, State.ringR, hlaunch, hmem]

theorem RingsSound.setRingW {s : State} {k : RingId} {v : Word} (hs : RingsSound s) (hv : IsIndex s.launch k v) :
    RingsSound (s.setRingW k v) where
  canonical := Memory.wf_memWrite4 hs.canonical _ _
  launch := hs.launch
  indexW q := by
    by_cases hq : q = k
    · subst hq
      rw [ringW_setRingW_same hs.canonical]
      exact hv.lt hs.launch
    · rw [ringW_setRingW_ne hs.launch hq]
      exact hs.indexW q
  indexR q := by
    rw [ringR_setRingW hs.launch]
    exact hs.indexR q

theorem RingsSound.setRingR {s : State} {k : RingId} {v : Word} (hs : RingsSound s) (hv : IsIndex s.launch k v) :
    RingsSound (s.setRingR k v) where
  canonical := Memory.wf_memWrite4 hs.canonical _ _
  launch := hs.launch
  indexW q := by
    rw [ringW_setRingR hs.launch]
    exact hs.indexW q
  indexR q := by
    by_cases hq : q = k
    · subst hq
      rw [ringR_setRingR_same hs.canonical]
      exact hv.lt hs.launch
    · rw [ringR_setRingR_ne hs.launch hq]
      exact hs.indexR q

theorem RingsSound.memSet_slot {s : State} {k : RingId} {n : Nat} (hs : RingsSound s) (hn : n < ringCap s.launch k)
    (b : Byte) : RingsSound { s with mem := memSet s.mem (ringSlotAddr s.launch k n) b } where
  canonical := Memory.wf_memSet hs.canonical _ _
  launch := hs.launch
  indexW q := by
    rw [(ringIndices_memSet_slot hs.launch hn b q).1]
    exact hs.indexW q
  indexR q := by
    rw [(ringIndices_memSet_slot hs.launch hn b q).2]
    exact hs.indexR q

/-- Every access keeps the rings, whoever makes it. -/
theorem Access.ringsSound {p : Rights} {s t : State} (h : Access p s t) (hs : RingsSound s) : RingsSound t := by
  cases h with
  | none => exact hs
  | read r => exact hs.of_mem (by simp) (by simp)
  | write r v _ => exact hs.of_mem (by simp) (by simp)
  | slot k n b hn => exact hs.memSet_slot hn b
  | indexW k v hv _ => exact hs.setRingW hv
  | indexR k v hv _ => exact hs.setRingR hv

end Sys2Proof.Machine
end

section
/-! SUPPORT. What the step of every agent can do, said once: CSEQ and IRQE, the port and the issue step, URX and WAKE
(R34, R196, R205, R206, R271, R276). -/

namespace Sys2Proof.Machine

/-! ### The sequencer -/

/-- A step of CSEQ: it moves on or waits, writes a register and moves on, or puts the block to sleep at P4_WFE. -/
inductive SequencerStep (s : State) : State → Prop
  | goto (q : SeqState) : SequencerStep s { s with seqState := q }
  | write (r : Slot) (v : Word) (q : SeqState) : SequencerStep s { s.regWrite r v with seqState := q }
  | sleep (p : PowerState) (hq : s.seqState = .p4Wfe) : SequencerStep s { s with pstate := p }

section

variable {s : State}

/-- A wait of CSEQ: it goes on once the condition holds. -/
theorem gives_wait {p : Prop} [Decidable p] (q : SeqState) :
    Gives (.ok (if p then { s with seqState := q } else s)) (SequencerStep s) := by
  apply gives_ok
  split
  · exact .goto q
  · exact .goto s.seqState

theorem gives_seqWrite {r : Slot} {v : Word} {q : SeqState} : Gives (seqWrite s r v q) (SequencerStep s) :=
  gives_map (gives_devWrite (.write r v q))

theorem gives_cseqStep (s : State) : Gives (cseqStep s) (SequencerStep s) := by
  unfold cseqStep
  cases hq : s.seqState
  case idle => exact gives_ok (.goto s.seqState)
  case s2XoscWait => exact gives_wait _
  case s3PllWait => exact gives_wait _
  case s5SwitchWait => exact gives_wait _
  case p4Wfe => exact gives_ok (.sleep _ hq)
  case s4PrescInter =>
    change Gives (seqS4PrescInter s) _
    unfold seqS4PrescInter
    cases s.launch.variant.prescInter with
    | some p => exact gives_seqWrite
    | none => exact gives_ok (.goto _)
  all_goals exact gives_seqWrite

end

/-! ### The interrupt engine -/

/-- IRQE's rights: UART_DATA and UART_CTRL (R277, R278), and with a channel W_RX and R_TX (R231). -/
def handlerRights : Rights where
  write r := r = .uartData ∨ r = .uartCtrl
  indexW k := k = .rx
  indexR k := k = .tx

/-- A run of the UART handler: accesses within IRQE's rights, one after the other in one step (R276, R306). -/
def HandlerRun : State → State → Prop := Relation.ReflTransGen (Access handlerRights)

theorem HandlerRun.frame {s t : State} (h : HandlerRun s t) : AccessFrame s t := by
  induction h with
  | refl => exact .refl s
  | tail _ hstep ih => exact ih.trans hstep.frame

theorem HandlerRun.ringsSound {s t : State} (h : HandlerRun s t) (hs : RingsSound s) : RingsSound t := by
  induction h with
  | refl => exact hs
  | tail _ hstep ih => exact hstep.ringsSound ih

section

variable {s : State}

theorem gives_putByte_rx {b : Byte} : Gives (putByte s .rx b) (HandlerRun s) := by
  unfold putByte
  refine .ite (gives_ok .refl) (gives_map (gives_writeRingSlot fun hn => ?_))
  exact (Relation.ReflTransGen.single (Access.slot _ _ b hn)).tail (.indexW .rx _ isIndex_nextIndex rfl)

theorem gives_rxRule : Gives (rxRule s) (HandlerRun s) := by
  unfold rxRule
  exact .ite (gives_devRead fun v => gives_putByte_rx.mono fun t ht => ht.head (.read .uartData)) (gives_ok .refl)

theorem gives_txRule : Gives (txRule s) (HandlerRun s) := by
  unfold txRule getByte
  refine .ite (.ite (gives_bind (gives_map fun b _ => gives_devWrite ?_)) (gives_devWrite ?_)) (gives_ok .refl)
  · exact (Relation.ReflTransGen.single (.indexR .tx _ isIndex_nextIndex rfl)).tail (.write .uartData _ (.inl rfl))
  · exact .single (.write .uartCtrl _ (.inr rfl))

/-- One IRQE step: the tick handler, or the receive rule and then the transmit rule (R276, R307). -/
theorem gives_irqeStep (s : State) : Gives (irqeStep s) fun t => t = tickHandler s ∨ HandlerRun s t := by
  unfold irqeStep uartHandler
  refine .ite (gives_ok (.inl rfl)) (gives_bind fun u hu => gives_txRule.mono fun t ht => ?_)
  exact .inr (Relation.ReflTransGen.trans (gives_rxRule u hu) ht)

end

/-! ### The port and the issue step -/

/-- The state with a command just latched (R30, R56). -/
def State.latch (s : State) (c : Word) : State := { s with busy := true, current := Current.start c s.arg }

theorem cmdWrite_of_ok {s : State} {c : Word} {i : Instr} (hb : s.busy = false) (hc : decode c = .ok i) :
    cmdWrite s c = .ok (s.latch c) := by
  simp [cmdWrite, hb, hc, State.latch]

theorem cmdWrite_of_error {s : State} {c : Word} {e : DecodeError} (hb : s.busy = false) (hc : decode c = .error e) :
    cmdWrite s c = .error (.raise .illegalCommand) := by
  simp [cmdWrite, hb, hc]

theorem cmdWrite_of_busy {s : State} {c : Word} (hb : s.busy = true) :
    cmdWrite s c = .error (.raise .commandWhileBusy) := by
  simp [cmdWrite, hb]

theorem gives_cmdWrite {s : State} {c : Word} {Q : State → Prop}
    (h : ∀ i, s.busy = false → decode c = .ok i → Q (s.latch c)) : Gives (cmdWrite s c) Q := by
  cases hb : s.busy with
  | true => rw [cmdWrite_of_busy hb]; exact gives_error _
  | false =>
    cases hc : decode c with
    | error e => rw [cmdWrite_of_error hb hc]; exact gives_error _
    | ok i => rw [cmdWrite_of_ok hb hc]; exact gives_ok (h i hb hc)

theorem gives_issue {s : State} {Q : State → Prop} (hend : s.launch.program[s.hpc]? = none → Q s)
    (h : ∀ c a i, s.busy = false → decode c = .ok i →
      Q { State.latch { s with arg := a } c with hpc := s.hpc + 1 }) : Gives (issue s) Q := by
  unfold issue
  split
  · next hnone => exact gives_ok (hend hnone)
  · next c a _ => exact gives_map (gives_cmdWrite fun i hb hi => h c a i hb hi)

/-- HOST's step: the current micro-step of its command, or the issue step (R34, R56). -/
theorem leads_hostStep {s : State} {Q : State → Prop} (hraise : ∀ c, Q (s.raise c))
    (hexec : ∀ i t, s.busy = true → decode s.current.word = .ok i → HostStep i s t → Q t)
    (hissue : s.busy = false → Gives (issue s) Q) : Leads (hostStep s) Q := by
  unfold hostStep
  split
  · next hb =>
    unfold hostMicroStep
    split
    · next i hi => exact fun t ht => hexec i t hb hi (exec_host i s t ht)
    · exact leads_commit hraise (gives_error _)
  · next hb => exact leads_commit hraise (hissue (by simpa using hb))

/-! ### URX and WAKE -/

/-- URX with nothing to take leaves the state; else it takes the head of LINE_IN and changes UART_STAT and RXDATA
alone (R271). -/
theorem urxStep_cases (s : State) : (s.lineIn = [] ∧ urxStep s = s) ∨
    ∃ b rest stat byte, s.lineIn = b :: rest ∧
      urxStep s = { s with lineIn := rest, uartStat := stat, rxData := byte } := by
  unfold urxStep
  split
  · next h => exact .inl ⟨h, rfl⟩
  · next b rest h =>
    split
    · exact .inr ⟨b, rest, _, s.rxData, h, rfl⟩
    · exact .inr ⟨b, rest, _, b, h, rfl⟩

/-- A wake from stop resumes, and changes CLK_CR and CLK_CFGR at most (R205). -/
theorem wakeFromStop_eq (s : State) : ∃ cr cfgr,
    wakeFromStop s = { s with pstate := .run, seqState := .idle, clkCr := cr, clkCfgr := cfgr } := by
  unfold wakeFromStop
  split
  · exact ⟨s.clkCr, s.clkCfgr, rfl⟩
  · exact ⟨_, _, rfl⟩

end Sys2Proof.Machine
end

section
/-! SUPPORT. Every step keeps ring indices in range and a valid command and sequencer state (R56, R61, R182, R200,
R204). -/

namespace Sys2Proof.Machine

/-! ### Ring indices -/

theorem HostStep.ringsSound {i : Instr} {s t : State} (h : HostStep i s t) (hs : RingsSound s) : RingsSound t := by
  cases h with
  | raise c => exact hs.of_mem rfl rfl
  | run access finish =>
    have hu := access.ringsSound hs
    cases finish with
    | complete => exact hu.of_mem rfl rfl
    | next => exact hu.of_mem rfl rfl
    | start => exact hu.of_mem rfl rfl

theorem SequencerStep.ringsSound {s t : State} (h : SequencerStep s t) (hs : RingsSound s) : RingsSound t := by
  cases h with
  | goto q => exact hs.of_mem rfl rfl
  | write r v q => exact hs.of_mem (s.regWrite_launch r v) (s.regWrite_mem r v)
  | sleep p _ => exact hs.of_mem rfl rfl

/-- Every index reads 0 in empty ring RAM (R62). -/
theorem memRead4_nil (a : Nat) : memRead4 [] a = 0 := by
  simp [memRead4, memGet, unlistedByte]

/-- After a wake from standby every index reads 0 (R62, R206). -/
theorem RingsSound.wakeFromStandby {s : State} (hs : RingsSound s) : RingsSound (wakeFromStandby s) := by
  have hread : ∀ k a, (memRead4 [] a).toNat < ringCap s.launch k := fun k a => by
    rw [memRead4_nil]
    exact isIndex_zero.lt hs.launch
  exact ⟨rfl, hs.launch, fun k => hread k _, fun k => hread k _⟩

theorem RingsSound.wakeStep {s : State} (hs : RingsSound s) : RingsSound (wakeStep s) := by
  unfold Machine.wakeStep
  split
  · exact hs
  · obtain ⟨cr, cfgr, h⟩ := wakeFromStop_eq s
    rw [h]
    exact hs.of_mem rfl rfl
  · exact hs.wakeFromStandby

theorem RingsSound.urxStep {s : State} (hs : RingsSound s) : RingsSound (urxStep s) := by
  obtain ⟨-, h⟩ | ⟨b, rest, stat, byte, -, h⟩ := urxStep_cases s <;> rw [h]
  · exact hs
  · exact hs.of_mem rfl rfl

/-- Every move's step keeps the rings (R61). -/
theorem perform_ringsSound {s : State} (m : Move) (hs : RingsSound s) : Leads (perform m s) RingsSound := by
  have hraise : ∀ c, RingsSound (s.raise c) := fun c => hs.of_mem rfl rfl
  cases m with
  | host =>
    exact leads_hostStep hraise (fun _ _ _ _ h => h.ringsSound hs) fun _ =>
      gives_issue (fun _ => hs) fun _ _ _ _ _ => hs.of_mem rfl rfl
  | cseq => exact leads_commit hraise ((gives_cseqStep s).mono fun t h => h.ringsSound hs)
  | irqe =>
    refine leads_commit hraise ((gives_irqeStep s).mono ?_)
    rintro t (rfl | h)
    · exact hs.of_mem rfl rfl
    · exact h.ringsSound hs
  | osc => exact leads_next (hs.of_mem rfl rfl)
  | pll => exact leads_next (hs.of_mem rfl rfl)
  | clksw => exact leads_next (hs.of_mem rfl rfl)
  | tick => exact leads_next (hs.of_mem rfl rfl)
  | utx => exact leads_next (hs.of_mem rfl rfl)
  | urx => exact leads_next hs.urxStep
  | wake => exact leads_next hs.wakeStep
  | portCmd c => exact leads_commit hraise (gives_cmdWrite fun _ _ _ => hs.of_mem rfl rfl)
  | portArg v => exact leads_next (hs.of_mem rfl rfl)

/-- Settles O27: canonical memory is carried along, since an index reads back as written only there. -/
theorem ringIndicesStayInRange : Obligations.RingIndicesStayInRange := by
  unfold Obligations.RingIndicesStayInRange
  intro s t hm hr h
  have ht : RingsSound t := step_keeps (fun _ _ hs => hs.of_mem rfl rfl)
    (fun u hs => hs.of_mem u.takeMove_launch u.takeMove_mem) (fun m _ _ hs _ => perform_ringsSound m hs _)
    (ringsSound_iff.mpr ⟨hm, hr⟩) h
  exact (ringsSound_iff.mp ht).2

/-! ### Command and sequencer -/

theorem commandValid_of_busy {s : State} {i : Instr} (hb : s.busy = true) (hi : decode s.current.word = .ok i) :
    commandValid s = true ↔ s.current.ms.number ≤ (lastMicroStep i).number := by
  simp [commandValid, hb, hi]

theorem commandValid_of_idle {s : State} (hb : s.busy = false) :
    commandValid s = true ↔ s.current = Current.none := by
  simp [commandValid, hb]

/-- BRINGUP or PDOWN waits at ms2 (R182, R200). -/
def SequencerAwaited (s : State) : Prop :=
  s.busy = true ∧ s.current.ms = .ms2 ∧ ∃ i, decode s.current.word = .ok i ∧ startsSequencer i = true

theorem sequencerValid_iff {s : State} : sequencerValid s = true ↔
    (s.seqState = .idle ∨ SequencerAwaited s) ∧ (s.pstate = .run ∨ s.seqState = .p4Wfe) := by
  cases hd : decode s.current.word with
  | error e => simp [sequencerValid, SequencerAwaited, hd]
  | ok i => cases i <;> simp [sequencerValid, SequencerAwaited, hd, startsSequencer]

/-- The command, the sequencer and the power state belong together (R56, R182, R200, R204). -/
structure ControlValid (s : State) : Prop where
  command : commandValid s = true
  sequencer : s.seqState = .idle ∨ SequencerAwaited s
  power : s.pstate = .run ∨ s.seqState = .p4Wfe

theorem controlValid_iff {s : State} : ControlValid s ↔ commandValid s = true ∧ sequencerValid s = true := by
  rw [sequencerValid_iff]
  exact ⟨fun ⟨hc, hq, hp⟩ => ⟨hc, hq, hp⟩, fun ⟨hc, hq, hp⟩ => ⟨hc, hq, hp⟩⟩

/-- With CSEQ idle in RUN only the command matters. -/
theorem ControlValid.of_idle {s : State} (hc : commandValid s = true) (hq : s.seqState = .idle)
    (hp : s.pstate = .run) : ControlValid s := ⟨hc, .inl hq, .inl hp⟩

/-- What changes neither the command nor the sequencer nor the power state keeps their validity. -/
theorem ControlValid.of_same {s t : State} (hs : ControlValid s) (hb : t.busy = s.busy)
    (hc : t.current = s.current) (hq : t.seqState = s.seqState) (hp : t.pstate = s.pstate) : ControlValid t := by
  rw [controlValid_iff] at hs ⊢
  simpa [commandValid, sequencerValid, hb, hc, hq, hp] using hs

theorem AccessFrame.controlValid {s t : State} (h : AccessFrame s t) (hs : ControlValid s) : ControlValid t :=
  hs.of_same h.busy h.current h.seqState h.pstate

/-- While BUSY = 0 CSEQ is idle. -/
theorem ControlValid.seqState_of_not_busy {s : State} (hs : ControlValid s) (hb : s.busy = false) :
    s.seqState = .idle := by
  refine hs.sequencer.resolve_right fun h => ?_
  simp [h.1] at hb

theorem one_le_lastMicroStep (i : Instr) : MicroStep.number .ms1 ≤ (lastMicroStep i).number := by
  cases i <;> exact Nat.le_of_ble_eq_true rfl

theorem two_le_lastMicroStep {i : Instr} (h : startsSequencer i = true) :
    MicroStep.number .ms2 ≤ (lastMicroStep i).number := by
  cases i
  case bringup => exact Nat.le_refl 2
  case pdown => exact Nat.le_refl 2
  all_goals cases h

/-- A micro-step of HOST, which CSEQ's idleness admits: it completes the command, stays in it, or starts CSEQ and
waits for it. -/
theorem HostStep.controlValid {i : Instr} {s t : State} (h : HostStep i s t) (hs : ControlValid s)
    (hb : s.busy = true) (hi : decode s.current.word = .ok i) (hq : s.seqState = .idle) (hp : s.pstate = .run) :
    ControlValid t := by
  cases h with
  | raise c => exact hs.of_same rfl rfl rfl rfl
  | @run u _ access finish =>
    have hf := access.frame
    have hbu : u.busy = true := hf.busy.trans hb
    have hiu : decode u.current.word = .ok i := by rw [hf.current, hi]
    cases finish with
    | complete => exact .of_idle ((commandValid_of_idle rfl).mpr rfl) (hf.seqState.trans hq) (hf.pstate.trans hp)
    | next c hword hms =>
      have hic : decode c.word = .ok i := by rw [hword, hiu]
      exact .of_idle ((commandValid_of_busy (s := { u with current := c }) hbu hic).mpr hms) (hf.seqState.trans hq)
        (hf.pstate.trans hp)
    | start q hstart =>
      exact ⟨(commandValid_of_busy (s := { u.goto .ms2 with seqState := q }) hbu hiu).mpr
        (two_le_lastMicroStep hstart), .inr ⟨hbu, rfl, i, hiu, hstart⟩, .inl (hf.pstate.trans hp)⟩

/-- A step of CSEQ, which is under way, leaves the command that waits for it; it sleeps only at P4_WFE. -/
theorem SequencerStep.controlValid {s t : State} (h : SequencerStep s t) (hs : ControlValid s)
    (hq : s.seqState ≠ .idle) (hp : s.pstate = .run) : ControlValid t := by
  have hwait : SequencerAwaited s := hs.sequencer.resolve_left hq
  cases h with
  | goto q => exact ⟨hs.command, .inr hwait, .inl hp⟩
  | write r v q =>
    have hf := AccessFrame.regWrite s r v
    have hu := hf.controlValid hs
    exact ⟨hu.command, .inr (hu.sequencer.resolve_left (hf.seqState ▸ hq)), .inl (hf.pstate.trans hp)⟩
  | sleep p h4 => exact ⟨hs.command, .inr hwait, .inr h4⟩

/-- A command is latched only while BUSY = 0, so while CSEQ is idle. -/
theorem ControlValid.latch {s : State} {c : Word} {i : Instr} (hs : ControlValid s) (hb : s.busy = false)
    (hc : decode c = .ok i) (hp : s.pstate = .run) : ControlValid (s.latch c) :=
  .of_idle ((commandValid_of_busy (s := s.latch c) rfl hc).mpr (one_le_lastMicroStep i)) (hs.seqState_of_not_busy hb) hp

theorem ControlValid.urxStep {s : State} (hs : ControlValid s) : ControlValid (urxStep s) := by
  obtain ⟨-, h⟩ | ⟨b, rest, stat, byte, -, h⟩ := urxStep_cases s <;> rw [h]
  · exact hs
  · exact hs.of_same rfl rfl rfl rfl

/-- A wake resumes with CSEQ idle, or resets (R205, R206). -/
theorem ControlValid.wakeStep {s : State} (hs : ControlValid s) : ControlValid (wakeStep s) := by
  unfold Machine.wakeStep
  split
  · exact hs
  · obtain ⟨cr, cfgr, h⟩ := wakeFromStop_eq s
    rw [h]
    exact .of_idle hs.command rfl rfl
  · exact .of_idle rfl rfl rfl

theorem running_iff {s : State} : s.running = true ↔ s.pstate = .run ∧ s.fault = none := by
  simp [State.running]

/-- Every enabled move's step keeps the control state valid. -/
theorem perform_controlValid {s : State} {m : Move} (hs : ControlValid s) (hen : enabled m s = true) :
    Leads (perform m s) ControlValid := by
  have hraise : ∀ c, ControlValid (s.raise c) := fun c => hs.of_same rfl rfl rfl rfl
  cases m with
  | host =>
    obtain ⟨hrun, hhost⟩ := Bool.and_eq_true_iff.mp hen
    obtain ⟨hp, -⟩ := running_iff.mp hrun
    refine leads_hostStep hraise (fun i t hb hi h => ?_) fun hb => gives_issue (fun _ => hs) fun c a i _ hc => ?_
    · exact h.controlValid hs hb hi (by simpa [hostEnabled, hb] using hhost) hp
    · have harg : ControlValid { s with arg := a } := hs.of_same rfl rfl rfl rfl
      exact (harg.latch hb hc hp).of_same rfl rfl rfl rfl
  | cseq =>
    obtain ⟨hrun, hq⟩ := Bool.and_eq_true_iff.mp hen
    exact leads_commit hraise ((gives_cseqStep s).mono fun t h =>
      h.controlValid hs (of_decide_eq_true hq) (running_iff.mp hrun).1)
  | irqe =>
    refine leads_commit hraise ((gives_irqeStep s).mono ?_)
    rintro t (rfl | h)
    · exact hs.of_same rfl rfl rfl rfl
    · exact h.frame.controlValid hs
  | osc => exact leads_next (hs.of_same rfl rfl rfl rfl)
  | pll => exact leads_next (hs.of_same rfl rfl rfl rfl)
  | clksw => exact leads_next (hs.of_same rfl rfl rfl rfl)
  | tick => exact leads_next (hs.of_same rfl rfl rfl rfl)
  | utx => exact leads_next (hs.of_same rfl rfl rfl rfl)
  | urx => exact leads_next hs.urxStep
  | wake => exact leads_next hs.wakeStep
  | portCmd c =>
    exact leads_commit hraise (gives_cmdWrite fun i hb hc => hs.latch hb hc (running_iff.mp hen).1)
  | portArg v => exact leads_next (hs.of_same rfl rfl rfl rfl)

/-- Settles O58: the command, the sequencer and the power state are carried as one predicate. -/
theorem commandStateStaysValid : Obligations.CommandStateStaysValid := by
  unfold Obligations.CommandStateStaysValid
  intro s t hc hq h
  refine controlValid_iff.mp (step_keeps (fun _ _ hs => hs.of_same rfl rfl rfl rfl) (fun u hs => ?_)
    (fun m u _ hs hen => perform_controlValid hs hen _) (controlValid_iff.mpr ⟨hc, hq⟩) h)
  exact hs.of_same u.takeMove_busy u.takeMove_current u.takeMove_seqState u.takeMove_pstate

end Sys2Proof.Machine
end

section
/-! SUPPORT. What HOST leaves to the other agents (R36, R59, R231), the line (R68, R270, R271), the enabled moves and
the issue step (R34, R56, R321), sleep (R205, R207) and the count of a ring (R61, R239). -/

namespace Sys2Proof.Machine

/-! ### What HOST leaves -/

/-- A register write leaves every other slot's word, but UART_STAT's, which a UART_DATA write changes (R35, R50). -/
theorem stored_regWrite_ne {s : State} {r q : Slot} (v : Word) (hne : q ≠ r)
    (hstat : ¬ (r = .uartData ∧ q = .uartStat)) : (s.regWrite r v).stored q = s.stored q := by
  by_cases hr : r = .uartData
  · subst hr
    exact stored_setStored_ne (s := s) (w := withBit s.uartStat 1 false) fun hq => hstat ⟨rfl, hq⟩
  · rw [regWrite_eq_setStored hr]
    exact stored_setStored_ne hne

/-- A read leaves every slot's word but UART_STAT's (R50). -/
theorem stored_afterRead_ne {s : State} {q : Slot} (r : Slot) (hq : q ≠ .uartStat) :
    (s.afterRead r).stored q = s.stored q := by
  unfold State.afterRead
  split
  · exact stored_setStored_ne (s := s) (w := withBit (withBit s.uartStat 0 false) 2 false) hq
  · rfl

/-- An access leaves the words of the slots it has no right to write, UART_STAT aside. -/
theorem Access.stored {p : Rights} {s t : State} {q : Slot} (h : Access p s t) (hq : ¬ p.write q)
    (hstat : q ≠ .uartStat) : t.stored q = s.stored q := by
  cases h with
  | none => rfl
  | read r => exact stored_afterRead_ne r hstat
  | write r v hr =>
    refine stored_regWrite_ne v ?_ fun hdata => hstat hdata.2
    rintro rfl
    exact hq hr
  | slot => rfl
  | indexW => rfl
  | indexR => rfl

/-- HOST writes no slot that CSEQ or IRQE owns (R36, R59). -/
theorem HostStep.stored {i : Instr} {s t : State} {q : Slot} (h : HostStep i s t) (hq : q.notHosts = true) :
    t.stored q = s.stored q := by
  cases h with
  | raise c => rfl
  | @run u _ access finish =>
    have hu : u.stored q = s.stored q := by
      refine access.stored (fun hw => ?_) ?_
      · exact absurd (hq.symm.trans hw) (by decide)
      · rintro rfl
        cases hq
    cases finish <;> exact hu

/-- What HOST's micro-step leaves of what is no register of HOST's. -/
structure HostFrame (s t : State) : Prop where
  launch : t.launch = s.launch
  arg : t.arg = s.arg
  hpc : t.hpc = s.hpc
  pstate : t.pstate = s.pstate
  tickPend : t.tickPend = s.tickPend
  rxData : t.rxData = s.rxData
  lineIn : t.lineIn = s.lineIn
  lineOut : t.lineOut = s.lineOut

theorem HostStep.frame {i : Instr} {s t : State} (h : HostStep i s t) : HostFrame s t := by
  cases h with
  | raise c => constructor <;> rfl
  | @run u _ access finish =>
    obtain ⟨hlaunch, harg, -, -, -, -, hpstate, hhpc, -, -, hpend, hrx, -, -, hin, hout⟩ := access.frame
    cases finish <;> exact ⟨hlaunch, harg, hhpc, hpstate, hpend, hrx, hin, hout⟩

/-- A command that the channel excludes is at its ms1 while CHEN = 1. -/
theorem not_pastChannelCheck {i : Instr} {s : State} (hchen : s.chen = true) (hb : s.busy = true)
    (hi : decode s.current.word = .ok i) (hex : driverExcluded s = true) : ¬ PastChannelCheck i s := by
  rintro ⟨hi', hms⟩
  simp only [driverExcluded, hchen, hb, hi, hms, Bool.not_true, decide_false, Bool.false_or] at hex
  cases i
  case tryput k b => cases k <;> simp_all [channelExcludes]
  case tryget k => cases k <;> simp_all [channelExcludes]
  all_goals simp_all [channelExcludes]

/-- With a channel HOST writes neither W_RX nor R_TX (R231). -/
theorem HostStep.handlerIndices {i : Instr} {s t : State} (h : HostStep i s t) (hl : s.launch.wellFormed = true)
    (hpast : ¬ PastChannelCheck i s) : t.ringW .rx = s.ringW .rx ∧ t.ringR .tx = s.ringR .tx := by
  cases h with
  | raise c => exact ⟨rfl, rfl⟩
  | @run u _ access finish =>
    have hw := access.ringW (k := .rx) hl fun hk => hpast (hk rfl)
    have hr := access.ringR (k := .tx) hl fun hk => hpast (hk rfl)
    cases finish <;> exact ⟨hw, hr⟩

/-- Settles O21: HOST's one access is within its rights. -/
theorem hostNeverWritesOthersRegisters : Obligations.HostNeverWritesOthersRegisters := by
  unfold Obligations.HostNeverWritesOthersRegisters
  intro i s t h
  have hstep := exec_host i s t h
  have hslot : ∀ q : Slot, q.notHosts = true → t.stored q = s.stored q := fun q => hstep.stored
  obtain ⟨hlaunch, harg, hhpc, hpstate, hpend, hrx, hin, hout⟩ := hstep.frame
  refine ⟨hslot .flashAcr rfl, hslot .clkCr rfl, hslot .clkPllcfg rfl, hslot .clkCfgr rfl, hslot .pwrCr rfl,
    hslot .scr rfl, hslot .tickCtrl rfl, hslot .tickReload rfl, hslot .tickCount rfl, hpend, hrx, hpstate, hin, hout,
    hhpc, harg, hlaunch, fun hchen hb hi hex hr => ?_⟩
  exact hstep.handlerIndices (ringsInRange_iff.mp hr).1 (not_pastChannelCheck hchen hb hi hex)

/-! ### The line -/

/-- The step of `m` appends TXDATA to LINE_OUT as UTX alone may, and takes the head of LINE_IN as URX alone may. -/
def LineStep (m : Move) (s t : State) : Prop :=
  (t.lineOut = s.lineOut ∨ (m = .utx ∧ t.lineOut = s.lineOut ++ [s.txData])) ∧
    (t.lineIn = s.lineIn ∨ (m = .urx ∧ ∃ b, s.lineIn = b :: t.lineIn))

theorem LineStep.of_same {m : Move} {s t : State} (hout : t.lineOut = s.lineOut) (hin : t.lineIn = s.lineIn) :
    LineStep m s t := ⟨.inl hout, .inl hin⟩

theorem SequencerStep.line {m : Move} {s t : State} (h : SequencerStep s t) : LineStep m s t := by
  cases h with
  | goto q => exact .of_same rfl rfl
  | write r v q => exact .of_same (s.regWrite_lineOut r v) (s.regWrite_lineIn r v)
  | sleep p _ => exact .of_same rfl rfl

theorem lineStep_urxStep (s : State) : LineStep .urx s (urxStep s) := by
  obtain ⟨-, h⟩ | ⟨b, rest, stat, byte, hin, h⟩ := urxStep_cases s <;> rw [h]
  · exact .of_same rfl rfl
  · exact ⟨.inl rfl, .inr ⟨rfl, b, hin⟩⟩

theorem lineStep_wakeStep (s : State) : LineStep .wake s (wakeStep s) := by
  unfold wakeStep
  split
  · exact .of_same rfl rfl
  · obtain ⟨cr, cfgr, h⟩ := wakeFromStop_eq s
    rw [h]
    exact .of_same rfl rfl
  · exact .of_same rfl rfl

theorem perform_line (m : Move) (s : State) : Leads (perform m s) (LineStep m s) := by
  have hraise : ∀ c, LineStep m s (s.raise c) := fun c => .of_same rfl rfl
  cases m with
  | host =>
    exact leads_hostStep hraise (fun _ _ _ _ h => .of_same h.frame.lineOut h.frame.lineIn) fun _ =>
      gives_issue (fun _ => .of_same rfl rfl) fun _ _ _ _ _ => .of_same rfl rfl
  | cseq => exact leads_commit hraise ((gives_cseqStep s).mono fun t h => h.line)
  | irqe =>
    refine leads_commit hraise ((gives_irqeStep s).mono ?_)
    rintro t (rfl | h)
    · exact .of_same rfl rfl
    · exact .of_same h.frame.lineOut h.frame.lineIn
  | osc => exact leads_next (.of_same rfl rfl)
  | pll => exact leads_next (.of_same rfl rfl)
  | clksw => exact leads_next (.of_same rfl rfl)
  | tick => exact leads_next (.of_same rfl rfl)
  | utx => exact leads_next ⟨.inr ⟨rfl, rfl⟩, .inl rfl⟩
  | urx => exact leads_next (lineStep_urxStep s)
  | wake => exact leads_next (lineStep_wakeStep s)
  | portCmd c => exact leads_commit hraise (gives_cmdWrite fun _ _ _ => .of_same rfl rfl)
  | portArg v => exact leads_next (.of_same rfl rfl)

/-- Settles O60: what the taken move does to the line, with the frequency checks leaving it. -/
theorem lineIsAppendOnly : Obligations.LineIsAppendOnly := by
  unfold Obligations.LineIsAppendOnly
  intro s t h
  obtain ⟨-, h⟩ := step_eq_next.mp h
  obtain ⟨-, rfl⟩ | ⟨-, u, hu, rfl⟩ := moveStep_eq_next.mp h
  · exact ⟨.inl s.takeMove_lineOut, .inl s.takeMove_lineIn⟩
  · simpa [LineStep] using perform_line _ _ u hu

/-! ### Enabled moves -/

theorem enabled_takeMove (m : Move) (s : State) : enabled m s.takeMove = enabled m s := by
  unfold State.takeMove
  split <;> cases m <;> rfl

theorem hostEnabled_iff {s : State} : hostEnabled s = true ↔
    (s.busy = true → s.seqState = .idle) ∧ (s.busy = false → s.hpc < s.launch.program.length) := by
  unfold hostEnabled
  cases s.busy <;> simp

theorem enabled_host_iff {s : State} (hf : s.fault = none) : enabled .host s = true ↔
    s.pstate = .run ∧ (s.busy = true → s.seqState = .idle) ∧
      (s.busy = false → s.hpc < s.launch.program.length) := by
  simp [enabled, running_iff, hf, hostEnabled_iff]

theorem enabled_cseq_iff {s : State} (hf : s.fault = none) :
    enabled .cseq s = true ↔ s.pstate = .run ∧ s.seqState ≠ .idle := by
  simp [enabled, running_iff, hf]

/-- The next move and the state it is taken in, from the schedule or as the free choice (log entry 1). -/
theorem nextMove_takeMove {s u : State} {m : Move}
    (h : (∃ rest, s.schedule = m :: rest ∧ u = { s with schedule := rest }) ∨
      (s.schedule = [] ∧ m = Config.freeMove s.freeCount ∧ u = { s with freeCount := s.freeCount + 1 })) :
    s.nextMove = m ∧ s.takeMove = u := by
  obtain ⟨rest, hs, rfl⟩ | ⟨hs, rfl, rfl⟩ := h <;> simp [State.nextMove, State.takeMove, hs]

theorem step_of_fault_none {s : State} (hf : s.fault = none) : step s = moveStep s.nextMove s.takeMove := by
  simp [step, hf]

theorem hostStep_of_not_busy {s : State} (hb : s.busy = false) : hostStep s = commit s (issue s) := by
  simp [hostStep, hb]

theorem hostStep_of_busy {s : State} {i : Instr} (hb : s.busy = true) (hi : decode s.current.word = .ok i) :
    hostStep s = exec i s := by
  simp [hostStep, hostMicroStep, hb, hi]

/-- Settles O5: `step` is the taken move's step, and the state it is taken in enables and latches what `s` does. -/
theorem stepRunsTheLatchedCommand : Obligations.StepRunsTheLatchedCommand := by
  unfold Obligations.StepRunsTheLatchedCommand
  intro s u m hf hnext
  obtain ⟨rfl, rfl⟩ := nextMove_takeMove hnext
  have hstep := step_of_fault_none hf
  have hon : enabled s.nextMove s = true → step s = checked (perform s.nextMove s.takeMove) := fun hen => by
    rw [hstep, moveStep, enabled_takeMove, if_pos hen]
  refine ⟨enabled_host_iff hf, enabled_cseq_iff hf, fun hen => ?_, hon, fun hm hp hb hpc => ?_,
    fun i hm hp hq hb hi => ?_, fun hm hp hq => ?_⟩
  · rw [hstep, moveStep, enabled_takeMove, hen]
    rfl
  · have hen : enabled .host s = true := (enabled_host_iff hf).mpr ⟨hp, by simp [hb], fun _ => hpc⟩
    rw [hon (hm ▸ hen), hm]
    exact congrArg checked (hostStep_of_not_busy (by simpa using hb))
  · have hen : enabled .host s = true := (enabled_host_iff hf).mpr ⟨hp, fun _ => hq, by simp [hb]⟩
    rw [hon (hm ▸ hen), hm]
    exact congrArg checked (hostStep_of_busy (by simpa using hb) (by simpa using hi))
  · have hen : enabled .cseq s = true := (enabled_cseq_iff hf).mpr ⟨hp, hq⟩
    rw [hon (hm ▸ hen), hm]
    rfl

/-! ### The issue step and the port -/

theorem issue_of_ok {s : State} {c a : Word} {i : Instr} (hb : s.busy = false)
    (hpc : s.launch.program[s.hpc]? = some (c, a)) (hc : decode c = .ok i) :
    issue s = .ok { s with arg := a, busy := true, current := Current.start c a, hpc := s.hpc + 1 } := by
  simp only [issue, hpc]
  rw [cmdWrite_of_ok (s := { s with arg := a }) hb hc]
  rfl

theorem issue_of_error {s : State} {c a : Word} {e : DecodeError} (hb : s.busy = false)
    (hpc : s.launch.program[s.hpc]? = some (c, a)) (hc : decode c = .error e) :
    issue s = .error (.raise .illegalCommand) := by
  simp only [issue, hpc]
  rw [cmdWrite_of_error (s := { s with arg := a }) hb hc]
  rfl

/-- Settles O6: a legal and an illegal word, at HOST's issue step and at the port. -/
theorem issueLatchesOneCommand : Obligations.IssueLatchesOneCommand := by
  unfold Obligations.IssueLatchesOneCommand
  intro s c a
  refine ⟨fun hb hpc => ?_, fun hb => ?_, fun hb => ?_, rfl, fun hf => ?_⟩
  · simp only [perform, hostStep_of_not_busy hb]
    cases hc : decode c with
    | ok i => rw [issue_of_ok hb hpc hc, commit_ok]
    | error e => rw [issue_of_error hb hpc hc, commit_raise]
  · simp only [perform]
    cases hc : decode c with
    | ok i => rw [cmdWrite_of_ok hb hc]; rfl
    | error e => rw [cmdWrite_of_error hb hc, commit_raise]
  · simp only [perform, cmdWrite_of_busy hb, commit_raise]
  · simp [enabled, running_iff, hf]

/-! ### Sleep -/

/-- Asleep, no agent runs and WAKE may (R67). -/
theorem enabled_iff_of_asleep {s : State} {m : Move} (hf : s.fault = none) (hp : s.pstate ≠ .run) :
    enabled m s = true ↔ m = .wake := by
  have hrun : s.running = false := by simp [State.running, hp]
  cases m <;> simp [enabled, hrun, hf, hp]

/-- CLK_CR after a wake from stop under revertToInternal (R205). -/
def clkCrReverted (w : Word) : Word := withBit (withBit (withBit (withBit w 16 false) 17 false) 8 false) 9 false

/-- Both sources are off, and neither is ready. -/
theorem getLsbD_clkCrReverted (w : Word) {j : Nat} (hj : j = 8 ∨ j = 9 ∨ j = 16 ∨ j = 17) :
    (clkCrReverted w).getLsbD j = false := by
  unfold clkCrReverted
  rw [getLsbD_withBit _ _ _ _ (by omega), getLsbD_withBit _ _ _ _ (by omega), getLsbD_withBit _ _ _ _ (by omega),
    getLsbD_withBit _ _ _ _ (by omega)]
  obtain rfl | rfl | rfl | rfl := hj <;> rfl

/-- CLK_CFGR after a wake from stop under revertToInternal (R205). -/
def clkCfgrReverted (w : Word) : Word := withField (withField w 0 0#2) 2 0#2

theorem fieldOf_clkCfgrReverted_sw (w : Word) : fieldOf (clkCfgrReverted w) 0 2 = 0 := by
  unfold clkCfgrReverted
  rw [fieldOf_withField_apart _ _ _ _ _ (by omega) (by omega), fieldOf_withField_same _ _ _ (by omega)]
  rfl

theorem fieldOf_clkCfgrReverted_sws (w : Word) : fieldOf (clkCfgrReverted w) 2 2 = 0 :=
  fieldOf_withField_same _ _ _ (by omega)

theorem fieldOf_clkCfgrReverted_kept (w : Word) {lo : Nat} (len : Nat) (hlo : 4 ≤ lo) :
    fieldOf (clkCfgrReverted w) lo len = fieldOf w lo len := by
  unfold clkCfgrReverted
  rw [fieldOf_withField_apart _ _ _ _ _ (by omega) (by omega), fieldOf_withField_apart _ _ _ _ _ (by omega) (by omega)]

theorem wakeFromStop_of_retain {s : State} (h : s.launch.stopPolicy = .retain) :
    wakeFromStop s = { s with pstate := .run, seqState := .idle } := by
  simp [wakeFromStop, h]

theorem wakeFromStop_of_revert {s : State} (h : s.launch.stopPolicy = .revertToInternal) :
    wakeFromStop s = { s with pstate := .run, seqState := .idle, clkCr := clkCrReverted s.clkCr,
                              clkCfgr := clkCfgrReverted s.clkCfgr } := by
  simp [wakeFromStop, h, clkCrReverted, clkCfgrReverted]

theorem perform_wake_of_stop {s : State} (hp : s.pstate = .stop) : perform .wake s = .next (wakeFromStop s) := by
  simp [perform, wakeStep, hp]

/-- Settles O49: the enabled moves of a sleeping block, and the two stop policies. -/
theorem sleepAndWakeFromStop : Obligations.SleepAndWakeFromStop := by
  unfold Obligations.SleepAndWakeFromStop
  intro s m hf
  refine ⟨enabled_iff_of_asleep hf, fun hp hpol => ?_, fun hp hpol => ⟨_, perform_wake_of_stop hp, ?_⟩⟩
  · rw [perform_wake_of_stop hp, wakeFromStop_of_retain hpol]
  · rw [wakeFromStop_of_revert hpol]
    have hoff {j : Nat} := getLsbD_clkCrReverted s.clkCr (j := j)
    refine ⟨rfl, fieldOf_clkCfgrReverted_sw _, fieldOf_clkCfgrReverted_sws _, ?_, hoff (by omega), hoff (by omega),
      hoff (by omega), hoff (by omega), ?_⟩
    · simp only [State.prescaler, fieldOf_clkCfgrReverted_kept _ _ (show 4 ≤ 4 by omega),
        fieldOf_clkCfgrReverted_kept _ _ (show 4 ≤ 8 by omega), fieldOf_clkCfgrReverted_kept _ _ (show 4 ≤ 11 by omega)]
    · simp only [State.clockState, State.sws, State.pllOn, State.xoscOn, fieldOf_clkCfgrReverted_sws,
        hoff (show 16 = 8 ∨ 16 = 9 ∨ 16 = 16 ∨ 16 = 17 by omega), hoff (show 8 = 8 ∨ 8 = 9 ∨ 8 = 16 ∨ 8 = 17 by omega)]
      rfl

/-! ### The count of a ring -/

theorem ringCount_eq {l : Launch} {k : RingId} {w r : Word} (hw : w.toNat < ringCap l k)
    (hr : r.toNat < ringCap l k) :
    ringCount l k w r = if r.toNat ≤ w.toNat then w.toNat - r.toNat else w.toNat + ringCap l k - r.toNat := by
  unfold ringCount
  split
  · next h =>
    have hsum : w.toNat + ringCap l k - r.toNat = (w.toNat - r.toNat) + ringCap l k := by omega
    rw [hsum, Nat.add_mod_right, Nat.mod_eq_of_lt (by omega)]
  · next h => exact Nat.mod_eq_of_lt (by omega)

theorem nextIndex_eq {l : Launch} {k : RingId} {x : Word} (hx : x.toNat < ringCap l k) :
    nextIndex l k x = if x.toNat + 1 = ringCap l k then 0 else x.toNat + 1 := by
  unfold nextIndex
  split
  · next h => rw [h, Nat.mod_self]
  · next h => exact Nat.mod_eq_of_lt (by omega)

theorem ringFull_iff {l : Launch} {k : RingId} {w r : Word} : ringFull l k w r = true ↔ nextIndex l k w = r.toNat := by
  simp [ringFull]

/-- Settles O25: with both indices in range the count and the next index are found without a remainder. -/
theorem ringCountIsBounded : Obligations.RingCountIsBounded := by
  unfold Obligations.RingCountIsBounded
  intro s k hl hrange
  simp only [ringInRange, Bool.and_eq_true, decide_eq_true_eq] at hrange
  obtain ⟨hw, hr⟩ := hrange
  obtain ⟨hcap, -⟩ := ringCap_bounds hl k
  simp only [ringFull_iff, ringCount_eq hw hr, nextIndex_eq hw, ← BitVec.toNat_inj]
  split_ifs <;> omega

end Sys2Proof.Machine
end

section
/-! SUPPORT. Registers as they are read and written, bit by bit (R35, R37 to R52), the STATUS word (R33) and CLK_CR's
edges (R39). -/

namespace Sys2Proof.Machine

/-! ### The masks of a slot -/

theorem rwMask_and_roMask (r : Slot) : r.rwMask &&& r.roMask = 0 := by cases r <;> decide

/-- The hardwired bits are RO (R39). -/
theorem hardwired_and_roMask (r : Slot) : r.hardwired &&& r.roMask = r.hardwired := by cases r <;> decide

theorem roMask_of_hardwired {r : Slot} {j : Nat} (h : r.hardwired.getLsbD j = true) : r.roMask.getLsbD j = true := by
  simpa [h] using congrArg (·.getLsbD j) (hardwired_and_roMask r)

theorem rwMask_of_roMask {r : Slot} {j : Nat} (h : r.roMask.getLsbD j = true) : r.rwMask.getLsbD j = false := by
  simpa [h] using congrArg (·.getLsbD j) (rwMask_and_roMask r)

theorem hardwired_of_rwMask {r : Slot} {j : Nat} (h : r.rwMask.getLsbD j = true) : r.hardwired.getLsbD j = false := by
  cases hj : r.hardwired.getLsbD j with
  | false => rfl
  | true => simp [rwMask_of_roMask (roMask_of_hardwired hj)] at h

/-! ### A register read -/

theorem getLsbD_regValue (s : State) (r : Slot) (j : Nat) : (s.regValue r).getLsbD j =
    ((s.stored r).getLsbD j && (r.rwMask.getLsbD j || r.roMask.getLsbD j) || r.hardwired.getLsbD j) := by
  simp only [State.regValue, BitVec.getLsbD_or, BitVec.getLsbD_and]

theorem regValue_congr {s t : State} {r : Slot} (h : t.stored r = s.stored r) : t.regValue r = s.regValue r := by
  simp only [State.regValue, h]

/-- An RW bit reads as it is stored. -/
theorem getLsbD_regValue_rw (s : State) {r : Slot} {j : Nat} (h : r.rwMask.getLsbD j = true) :
    (s.regValue r).getLsbD j = (s.stored r).getLsbD j := by
  simp [getLsbD_regValue, h, hardwired_of_rwMask h]

/-- A reserved bit reads 0 (R35). -/
theorem regValue_and_reservedMask (s : State) (r : Slot) : s.regValue r &&& r.reservedMask = 0 := by
  apply BitVec.eq_of_getLsbD_eq
  intro j hj
  have hwired : r.hardwired.getLsbD j = true → r.roMask.getLsbD j = true := roMask_of_hardwired
  simp only [BitVec.getLsbD_and, getLsbD_regValue, Slot.reservedMask, BitVec.getLsbD_not, BitVec.getLsbD_or, hj,
    decide_true, Bool.true_and]
  cases hro : r.roMask.getLsbD j <;> cases hhw : r.hardwired.getLsbD j <;> simp_all

/-! ### A register write -/

/-- CLK_CR after a write, bit by bit: a ready flag falls with its enable, the RW bits take the value (R39). -/
theorem getLsbD_clkCrAfterWrite (old v : Word) (j : Nat) : (clkCrAfterWrite old v).getLsbD j =
    if j = 17 ∧ old.getLsbD 16 = true ∧ v.getLsbD 16 = false then false
    else if j = 9 ∧ old.getLsbD 8 = true ∧ v.getLsbD 8 = false then false
    else (rwMerge (Slot.rwMask .clkCr) old v).getLsbD j := by
  have hclear : ∀ (p : Bool) (w : Word) (i : Nat), i < 32 →
      (if p then withBit w i false else w).getLsbD j = if j = i ∧ p = true then false else w.getLsbD j := by
    intro p w i hi
    cases p
    · simp
    · simp [getLsbD_withBit _ _ _ _ hi]
  unfold clkCrAfterWrite
  rw [hclear _ _ 17 (by omega), hclear _ _ 9 (by omega)]
  simp only [Bool.and_eq_true, Bool.not_eq_true']

/-- An RW bit takes the written value (R35). -/
theorem getLsbD_writtenWord_rw (s : State) {r : Slot} (v : Word) {j : Nat} (h : r.rwMask.getLsbD j = true) :
    (s.writtenWord r v).getLsbD j = v.getLsbD j := by
  unfold State.writtenWord
  split
  · next hr =>
    subst hr
    have hnot : ∀ i, (Slot.rwMask .clkCr).getLsbD i = false → j ≠ i := by
      rintro i hi rfl
      simp [hi] at h
    have h9 : j ≠ 9 := hnot 9 (by decide)
    have h17 : j ≠ 17 := hnot 17 (by decide)
    rw [getLsbD_clkCrAfterWrite, if_neg fun hc => h17 hc.1, if_neg fun hc => h9 hc.1, getLsbD_rwMerge, if_pos h]
  · rw [getLsbD_rwMerge, if_pos h]

/-- An RO bit keeps its value in a write, CLK_CR's aside (R35). -/
theorem getLsbD_writtenWord_ro (s : State) {r : Slot} (v : Word) {j : Nat} (hr : r ≠ .clkCr)
    (h : r.roMask.getLsbD j = true) : (s.writtenWord r v).getLsbD j = (s.stored r).getLsbD j := by
  rw [State.writtenWord, if_neg hr, getLsbD_rwMerge, rwMask_of_roMask h]
  rfl

theorem stored_regWrite_same {s : State} {r : Slot} (v : Word) (hr : r ≠ .uartData) :
    (s.regWrite r v).stored r = s.writtenWord r v := by
  rw [regWrite_eq_setStored hr, stored_setStored, if_pos rfl, if_neg hr]

theorem regWrite_uartData_eq (s : State) (v : Word) :
    s.regWrite .uartData v = { s with txData := v.extractLsb' 0 8, uartStat := s.uartStat &&& ~~~2#32 } := by
  have hbyte : v.setWidth 8 = v.extractLsb' 0 8 := by
    apply BitVec.eq_of_getLsbD_eq
    intro j hj
    simp [hj]
  rw [← hbyte]
  rfl

/-- Settles O15: a write read back in the bits its masks name. -/
theorem registerWritesTakeTheRwBits : Obligations.RegisterWritesTakeTheRwBits := by
  unfold Obligations.RegisterWritesTakeTheRwBits
  intro s r q v
  refine ⟨fun hr => ?_, fun hr hcr => ?_, fun hq hstat => ?_, regWrite_uartData_eq s v, fun hr => ?_⟩
  · refine and_eq_and_of_bits fun j hj => ?_
    rw [getLsbD_regValue_rw _ hj, stored_regWrite_same v hr, getLsbD_writtenWord_rw s v hj]
  · refine and_eq_and_of_bits fun j hj => ?_
    rw [getLsbD_regValue, getLsbD_regValue, stored_regWrite_same v hr, getLsbD_writtenWord_ro s v hcr hj]
  · exact regValue_congr (stored_regWrite_ne v hq hstat)
  · cases r
    case uartData => exact absurd rfl hr
    all_goals rfl

/-- Settles O17: CLK_CR's four flags after a write, and the write that would lock an unconfigured PLL. -/
theorem clkCrWriteEdges : Obligations.ClkCrWriteEdges := by
  unfold Obligations.ClkCrWriteEdges
  intro s v
  have h8 : (Slot.rwMask .clkCr).getLsbD 8 = true := by decide
  have h9 : (Slot.rwMask .clkCr).getLsbD 9 = false := by decide
  have h17 : (Slot.rwMask .clkCr).getLsbD 17 = false := by decide
  refine ⟨?_, getLsbD_clkCrAfterWrite_pllOn s.clkCr v, ?_, ?_, fun hres hon hoff hzero => ?_⟩
  · change (clkCrAfterWrite s.clkCr v).getLsbD 8 = _
    rw [getLsbD_clkCrAfterWrite, if_neg (by omega), if_neg (by omega), getLsbD_rwMerge, if_pos h8]
  · change (clkCrAfterWrite s.clkCr v).getLsbD 9 = (s.clkCr.getLsbD 9 && !(s.clkCr.getLsbD 8 && !v.getLsbD 8))
    rw [getLsbD_clkCrAfterWrite, if_neg (by omega), getLsbD_rwMerge, h9]
    cases s.clkCr.getLsbD 8 <;> cases v.getLsbD 8 <;> simp
  · change (clkCrAfterWrite s.clkCr v).getLsbD 17 = (s.clkCr.getLsbD 17 && !(s.clkCr.getLsbD 16 && !v.getLsbD 16))
    rw [getLsbD_clkCrAfterWrite, getLsbD_rwMerge, h17]
    cases s.clkCr.getLsbD 16 <;> cases v.getLsbD 16 <;> simp
  · have hfault : writeFault s .clkCr v = some .pllConfigIllegal := by
      rw [writeFault, if_neg (by simp [Slot.isPeripheral, Slot.isUart]), if_neg (by simp [Slot.isUart]),
        if_neg (by simp [hres]), if_neg (by simp [Slot.reservedCode]), if_neg (by simp),
        if_pos ⟨rfl, hon, hoff, hzero⟩]
    exact devWrite_eq_error.mpr ⟨_, hfault, rfl⟩

/-! ### The STATUS word -/

/-- The number whose 32-bit word STATUS is (R33). -/
def State.statusNumber (s : State) : Nat :=
  s.busy.toNat + 2 ^ 1 * s.fault.isSome.toNat + 2 ^ 8 * s.fcode + 2 ^ 16 * s.seqState.number
    + 2 ^ 24 * s.pstate.number

/-- Every number in STATUS fits its field. -/
theorem statusFields_lt (s : State) : s.busy.toNat < 2 ∧ s.fault.isSome.toNat < 2 ∧ s.fcode < 2 ^ 8 ∧
    s.seqState.number < 2 ^ 5 ∧ s.pstate.number < 2 ^ 2 := by
  refine ⟨Bool.toNat_lt _, Bool.toNat_lt _, ?_, ?_, ?_⟩
  · unfold State.fcode
    cases s.fault with
    | none => decide
    | some c => cases c <;> decide
  · cases s.seqState <;> decide
  · cases s.pstate <;> decide

theorem statusNumber_lt (s : State) : s.statusNumber < 2 ^ 32 := by
  obtain ⟨hbusy, hfault, hcode, hseq, hpower⟩ := statusFields_lt s
  unfold State.statusNumber
  omega

/-- A field of STATUS, by division and remainder. -/
theorem fieldOf_statusWord {s : State} {lo len n : Nat} (h : s.statusNumber / 2 ^ lo % 2 ^ len = n) :
    fieldOf s.statusWord lo len = BitVec.ofNat len n := by
  apply BitVec.eq_of_toNat_eq
  have hfield : (fieldOf s.statusWord lo len).toNat = s.statusNumber / 2 ^ lo % 2 ^ len :=
    wordField_ofNat _ _ _ (statusNumber_lt s)
  rw [hfield, BitVec.toNat_ofNat, ← h, Nat.mod_mod]

theorem getLsbD_eq_false_of_fieldOf {w : Word} {lo len j : Nat} (h : fieldOf w lo len = 0) (hlo : lo ≤ j)
    (hhi : j < lo + len) : w.getLsbD j = false := by
  have hbit : (fieldOf w lo len).getLsbD (j - lo) = false := by simp [h]
  have hj : lo + (j - lo) = j := by omega
  have hin : j - lo < len := by omega
  rwa [getLsbD_fieldOf, hj, decide_eq_true hin, Bool.true_and] at hbit

/-- A bit of a word is the number of the field of that bit alone. -/
theorem getLsbD_of_fieldOf {w : Word} {j : Nat} {b : Bool} (h : fieldOf w j 1 = BitVec.ofNat 1 b.toNat) :
    w.getLsbD j = b := by
  have hbit := congrArg (·.getLsbD 0) h
  simp only [getLsbD_fieldOf] at hbit
  cases b <;> simpa using hbit

theorem statusWord_fields (s : State) : s.statusWord.getLsbD 0 = s.busy ∧ s.statusWord.getLsbD 1 = s.fault.isSome ∧
    fieldOf s.statusWord 8 8 = BitVec.ofNat 8 s.fcode ∧
    fieldOf s.statusWord 16 5 = BitVec.ofNat 5 s.seqState.number ∧
    fieldOf s.statusWord 24 2 = BitVec.ofNat 2 s.pstate.number := by
  obtain ⟨hbusy, hfault, hcode, hseq, hpower⟩ := statusFields_lt s
  refine ⟨getLsbD_of_fieldOf (fieldOf_statusWord ?_), getLsbD_of_fieldOf (fieldOf_statusWord ?_),
    fieldOf_statusWord ?_, fieldOf_statusWord ?_, fieldOf_statusWord ?_⟩ <;>
  · unfold State.statusNumber
    omega

/-- STATUS has 0 outside its fields (R33). -/
theorem statusWord_and_gaps (s : State) : s.statusWord &&& 0xFCE000FC = 0 := by
  obtain ⟨hbusy, hfault, hcode, hseq, hpower⟩ := statusFields_lt s
  have hlow : fieldOf s.statusWord 2 6 = 0 := fieldOf_statusWord (n := 0) (by unfold State.statusNumber; omega)
  have hmid : fieldOf s.statusWord 21 3 = 0 := fieldOf_statusWord (n := 0) (by unfold State.statusNumber; omega)
  have htop : fieldOf s.statusWord 26 6 = 0 := fieldOf_statusWord (n := 0) (by unfold State.statusNumber; omega)
  have hgaps : ∀ j < 32, (0xFCE000FC : Word).getLsbD j = true →
      (2 ≤ j ∧ j < 2 + 6) ∨ (21 ≤ j ∧ j < 21 + 3) ∨ (26 ≤ j ∧ j < 26 + 6) := by decide
  apply BitVec.eq_of_getLsbD_eq
  intro j hj
  rw [BitVec.getLsbD_and]
  cases hm : (0xFCE000FC : Word).getLsbD j with
  | false => simp
  | true =>
    obtain ⟨hlo, hhi⟩ | ⟨hlo, hhi⟩ | ⟨hlo, hhi⟩ := hgaps j hj hm
    · simp [getLsbD_eq_false_of_fieldOf hlow hlo hhi]
    · simp [getLsbD_eq_false_of_fieldOf hmid hlo hhi]
    · simp [getLsbD_eq_false_of_fieldOf htop hlo hhi]

/-! ### Reads -/

theorem regValue_clkCr_and_hardwired (s : State) : s.regValue .clkCr &&& 3 = 3 := by
  have hwired : ∀ j, (3 : Word).getLsbD j = true → (s.regValue .clkCr).getLsbD j = (3 : Word).getLsbD j := by
    intro j hj
    have hj' : (Slot.hardwired .clkCr).getLsbD j = true := hj
    rw [getLsbD_regValue, hj', Bool.or_true, hj]
  exact (and_eq_and_of_bits hwired).trans BitVec.and_self

theorem regValue_uartData (s : State) : s.regValue .uartData = s.rxData.setWidth 32 := by
  apply BitVec.eq_of_getLsbD_eq
  intro j hj
  have hmask : ∀ i < 8, (Slot.rwMask .uartData).getLsbD i = true := by decide
  have hwired : (Slot.hardwired .uartData).getLsbD j = false := by simp [Slot.hardwired]
  rw [getLsbD_regValue, hwired, Bool.or_false]
  change ((s.rxData.setWidth 32).getLsbD j && _) = _
  by_cases h8 : j < 8
  · simp [hmask j h8]
  · have hb : s.rxData.getLsbD j = false := BitVec.getLsbD_of_ge _ _ (by omega)
    simp [hb]

theorem afterRead_of_ne {s : State} {r : Slot} (h : r ≠ .uartData) : s.afterRead r = s := if_neg h

/-- A UART_DATA read clears RXNE and ORE (R50). -/
theorem afterRead_uartData (s : State) :
    s.afterRead .uartData = { s with uartStat := s.uartStat &&& ~~~5#32 } := by
  have hbits : withBit (withBit s.uartStat 0 false) 2 false = s.uartStat &&& ~~~5#32 := by
    have hmask : ~~~(1#32 <<< 0) &&& ~~~(1#32 <<< 2) = ~~~5#32 := by decide
    simp only [withBit, Bool.false_eq_true, if_false, BitVec.and_assoc, hmask]
  rw [← hbits]
  rfl

/-- Settles O16: the masks, the fields of STATUS, and the clock's numbers by their definitions. -/
theorem readsShowNoReservedBits : Obligations.ReadsShowNoReservedBits := by
  unfold Obligations.ReadsShowNoReservedBits
  intro s r
  obtain ⟨hbusy, hfault, hcode, hseq, hpower⟩ := statusWord_fields s
  refine ⟨regValue_and_reservedMask s r, regValue_clkCr_and_hardwired s, afterRead_of_ne, afterRead_uartData s,
    regValue_uartData s, ⟨hbusy, hfault, ?_, ?_, ?_, statusWord_and_gaps s⟩, rfl, ?_⟩
  · rw [hcode, State.fcode]
    cases s.fault with
    | none => rfl
    | some c => cases c <;> rfl
  · rw [hseq]
    cases s.seqState <;> rfl
  · rw [hpower]
    cases s.pstate <;> rfl
  · have hsource : ∀ {c}, fieldOf s.clkCfgr 2 2 = c → s.sysclk = s.srcFreq c := congrArg s.srcFreq
    exact ⟨fun h => hsource h, fun h => hsource h, fun h => hsource h, rfl, rfl, rfl⟩

end Sys2Proof.Machine
end

section
/-! SUPPORT. Every step keeps ring RAM in canonical form (R101, R102): each access does, and beside accesses only a
wake from standby touches ring RAM, by emptying it (R206). -/

namespace Sys2Proof.Machine

/-- The state's ring RAM has the canonical form. -/
def CanonicalMemory (s : State) : Prop := Memory.wf s.mem = true

theorem CanonicalMemory.of_mem {s t : State} (hs : CanonicalMemory s) (hmem : t.mem = s.mem) : CanonicalMemory t :=
  (congrArg Memory.wf hmem).trans hs

/-- Every access keeps the canonical form, whoever makes it and wherever it stores. -/
theorem Access.canonicalMemory {p : Rights} {s t : State} (h : Access p s t) (hs : CanonicalMemory s) :
    CanonicalMemory t := by
  cases h with
  | none => exact hs
  | read r => exact hs.of_mem (s.afterRead_mem r)
  | write r v _ => exact hs.of_mem (s.regWrite_mem r v)
  | slot k n b _ => exact Memory.wf_memSet hs _ _
  | indexW k v _ _ => exact Memory.wf_memWrite4 hs _ _
  | indexR k v _ _ => exact Memory.wf_memWrite4 hs _ _

theorem MicroStepEnd.mem {i : Instr} {u t : State} (h : MicroStepEnd i u t) : t.mem = u.mem := by
  cases h <;> rfl

theorem SequencerStep.mem {s t : State} (h : SequencerStep s t) : t.mem = s.mem := by
  cases h with
  | goto q => rfl
  | write r v q => exact s.regWrite_mem r v
  | sleep p _ => rfl

theorem urxStep_mem (s : State) : (urxStep s).mem = s.mem := by
  obtain ⟨-, h⟩ | ⟨b, rest, stat, byte, -, h⟩ := urxStep_cases s <;> rw [h]

theorem wakeFromStop_mem (s : State) : (wakeFromStop s).mem = s.mem := by
  obtain ⟨cr, cfgr, h⟩ := wakeFromStop_eq s
  rw [h]

theorem HostStep.canonicalMemory {i : Instr} {s t : State} (h : HostStep i s t) (hs : CanonicalMemory s) :
    CanonicalMemory t := by
  cases h with
  | raise c => exact hs
  | run access finish => exact (access.canonicalMemory hs).of_mem finish.mem

theorem HandlerRun.canonicalMemory {s t : State} (h : HandlerRun s t) (hs : CanonicalMemory s) :
    CanonicalMemory t := by
  induction h with
  | refl => exact hs
  | tail _ access ih => exact access.canonicalMemory ih

theorem CanonicalMemory.wakeStep {s : State} (hs : CanonicalMemory s) : CanonicalMemory (wakeStep s) := by
  unfold Machine.wakeStep
  cases s.pstate with
  | run => exact hs
  | stop => exact hs.of_mem (wakeFromStop_mem s)
  | standby => exact rfl

/-- Every move's step keeps the canonical form. -/
theorem perform_canonicalMemory {s : State} (m : Move) (hs : CanonicalMemory s) :
    Leads (perform m s) CanonicalMemory := by
  have hraise : ∀ c, CanonicalMemory (s.raise c) := fun _ => hs
  cases m with
  | host =>
    exact leads_hostStep hraise (fun _ _ _ _ h => h.canonicalMemory hs) fun _ =>
      gives_issue (fun _ => hs) fun _ _ _ _ _ => hs
  | cseq => exact leads_commit hraise ((gives_cseqStep s).mono fun t h => hs.of_mem h.mem)
  | irqe =>
    refine leads_commit hraise ((gives_irqeStep s).mono ?_)
    rintro t (rfl | h)
    · exact hs
    · exact h.canonicalMemory hs
  | urx => exact leads_next (hs.of_mem (urxStep_mem s))
  | wake => exact leads_next hs.wakeStep
  | portCmd c => exact leads_commit hraise (gives_cmdWrite fun _ _ _ => hs)
  | osc | pll | clksw | tick | utx | portArg _ => exact leads_next hs

/-- Settles O56: whichever move is taken, its step keeps the canonical form. -/
theorem memoryStaysCanonical : Obligations.MemoryStaysCanonical := by
  unfold Obligations.MemoryStaysCanonical
  intro s t hs h
  exact step_keeps (P := CanonicalMemory) (fun _ _ hu => hu) (fun u hu => hu.of_mem u.takeMove_mem)
    (fun m _ _ hu _ => perform_canonicalMemory m hu _) hs h

end Sys2Proof.Machine
end

section
/-! SUPPORT. The bytes of ring RAM that HOST's micro-steps store, command by command (R102, R233, R234, R257, R260,
R261): most commands leave ring RAM as it is, and the ring and channel commands store where storedBytes says. -/

namespace Sys2Proof.Machine

/-- Ring RAM is the same in both states. -/
def SameMemory (s t : State) : Prop := t.mem = s.mem

/-- From `s` to `t` no byte of ring RAM changes but those of the range, given by its first address and its length. -/
def StoresWithin (range : Option (Nat × Nat)) (s t : State) : Prop :=
  ∀ a, (∀ p, range = some p → a < p.1 ∨ p.1 + p.2 ≤ a) → memGet t.mem a = memGet s.mem a

theorem SameMemory.ite {s t u : State} {p : Prop} [Decidable p] (ht : SameMemory s t) (hu : SameMemory s u) :
    SameMemory s (if p then t else u) := by
  split
  · exact ht
  · exact hu

section

variable {s : State}

/-! ### The shapes of a micro-step -/

theorem sameMemory_raise (c : FaultCode) : Leads (commit s (.error (.raise c))) (SameMemory s) :=
  leads_next rfl

theorem sameMemory_hostRead {n : Nat} {f : Word × State → State} (hf : ∀ v u, SameMemory u (f (v, u))) :
    Leads (commit s (hostRead s n >>= fun p => pure (f p))) (SameMemory s) :=
  leads_commit (fun _ => rfl) <| gives_hostRead fun v r => gives_ok ((hf v _).trans (s.afterRead_mem r))

theorem sameMemory_devRead {r : Slot} {f : Word × State → State} (hf : ∀ v u, SameMemory u (f (v, u))) :
    Leads (commit s (devRead s r >>= fun p => pure (f p))) (SameMemory s) :=
  leads_commit (fun _ => rfl) <| gives_devRead fun v => gives_ok ((hf v _).trans (s.afterRead_mem r))

theorem sameMemory_hostWrite {n : Nat} {v : Word} {f : State → State} (hf : ∀ u, SameMemory u (f u)) :
    Leads (commit s (hostWrite s n v >>= fun u => pure (f u))) (SameMemory s) :=
  leads_commit (fun _ => rfl) <| gives_bind <| gives_hostWrite fun r _ =>
    gives_ok ((hf _).trans (s.regWrite_mem r v))

theorem sameMemory_devWrite {r : Slot} {v : Word} {f : State → State} (hf : ∀ u, SameMemory u (f u)) :
    Leads (commit s (devWrite s r v >>= fun u => pure (f u))) (SameMemory s) :=
  leads_commit (fun _ => rfl) <| gives_bind <| gives_devWrite <| gives_ok ((hf _).trans (s.regWrite_mem r v))

theorem sameMemory_readRingSlot {k : RingId} {n : Nat} {f : Byte → State} (hf : ∀ b, SameMemory s (f b)) :
    Leads (commit s (readRingSlot s k n >>= fun b => pure (f b))) (SameMemory s) :=
  leads_commit (fun _ => rfl) <| gives_bind fun b _ => gives_ok (hf b)

/-- A micro-step that leaves ring RAM stores within every range. -/
theorem storesWithin_of_sameMemory {r : Result} {range : Option (Nat × Nat)} (h : Leads r (SameMemory s)) :
    Leads r (StoresWithin range s) := fun t ht a _ => congrArg (memGet · a) (h t ht)

/-- A choice between two micro-steps, with the range chosen alike. -/
theorem Leads.ite_storesWithin {p : Prop} [Decidable p] {r q : Result} {a b : Option (Nat × Nat)}
    (hr : Leads r (StoresWithin a s)) (hq : Leads q (StoresWithin b s)) :
    Leads (if p then r else q) (StoresWithin (if p then a else b) s) := by
  split
  · exact hr
  · exact hq

theorem storesWithin_writeRingSlot {k : RingId} {n : Nat} {b : Byte} {f : State → State}
    (hf : ∀ u, SameMemory u (f u)) :
    Leads (commit s (writeRingSlot s k n b >>= fun u => pure (f u)))
      (StoresWithin (some (ringSlotAddr s.launch k n, 1)) s) := by
  refine leads_commit (fun _ _ _ => rfl) <| gives_bind <| gives_writeRingSlot fun _ => gives_ok fun a ha => ?_
  have hne : a ≠ ringSlotAddr s.launch k n := by
    have := ha _ rfl
    omega
  exact (congrArg (memGet · a) (hf _)).trans (memGet_memSet_ne hne _ _)

theorem storesWithin_setRingW {k : RingId} {v : Word} {t : State} (ht : SameMemory (s.setRingW k v) t) :
    Leads (.next t) (StoresWithin (some (ringBase s.launch k, 4)) s) :=
  leads_next fun a ha => (congrArg (memGet · a) ht).trans (memGet_memWrite4_outside (ha _ rfl) _ _)

theorem storesWithin_setRingR {k : RingId} {v : Word} {t : State} (ht : SameMemory (s.setRingR k v) t) :
    Leads (.next t) (StoresWithin (some (ringBase s.launch k + 4, 4)) s) :=
  leads_next fun a ha => (congrArg (memGet · a) ht).trans (memGet_memWrite4_outside (ha _ rfl) _ _)

end

/-! ### The commands that leave ring RAM -/

theorem execRd_sameMemory (slot : Nat) (s : State) : Leads (execRd slot s) (SameMemory s) := by
  unfold execRd
  cases s.current.ms
  case ms1 => exact sameMemory_hostRead fun _ _ => rfl
  all_goals exact leads_fault _

theorem execWr_sameMemory (slot : Nat) (s : State) : Leads (execWr slot s) (SameMemory s) := by
  unfold execWr
  cases s.current.ms
  case ms1 => exact sameMemory_hostWrite fun _ => rfl
  all_goals exact leads_fault _

theorem execRdbit_sameMemory (slot bit : Nat) (s : State) : Leads (execRdbit slot bit s) (SameMemory s) := by
  unfold execRdbit
  cases s.current.ms
  case ms1 => exact sameMemory_hostRead fun _ _ => rfl
  all_goals exact leads_fault _

theorem execWrbit_sameMemory (slot bit : Nat) (v : Bool) (s : State) :
    Leads (execWrbit slot bit v s) (SameMemory s) := by
  unfold execWrbit
  cases s.current.ms
  case ms1 => exact sameMemory_hostRead fun _ _ => rfl
  case ms2 => exact sameMemory_hostWrite fun _ => rfl
  all_goals exact leads_fault _

theorem execPoll_sameMemory (slot bit : Nat) (v : Bool) (s : State) :
    Leads (execPoll slot bit v s) (SameMemory s) := by
  unfold execPoll
  cases s.current.ms
  case ms1 => exact sameMemory_hostRead fun _ _ => .ite rfl rfl
  all_goals exact leads_fault _

theorem execIsfull_sameMemory (k : RingId) (s : State) : Leads (execIsfull k s) (SameMemory s) := by
  unfold execIsfull
  cases s.current.ms
  case ms1 => exact leads_next rfl
  case ms2 => exact leads_next rfl
  all_goals exact leads_fault _

theorem execIsempty_sameMemory (k : RingId) (s : State) : Leads (execIsempty k s) (SameMemory s) := by
  unfold execIsempty
  cases s.current.ms
  case ms1 => exact leads_next rfl
  case ms2 => exact leads_next rfl
  all_goals exact leads_fault _

theorem execCount_sameMemory (k : RingId) (s : State) : Leads (execCount k s) (SameMemory s) := by
  unfold execCount
  cases s.current.ms
  case ms1 => exact leads_next rfl
  case ms2 => exact leads_next rfl
  all_goals exact leads_fault _

theorem execUinit_sameMemory (s : State) : Leads (execUinit s) (SameMemory s) := by
  unfold execUinit
  cases s.current.ms
  case ms1 => exact .ite (sameMemory_raise _) (sameMemory_devRead fun _ _ => rfl)
  case ms2 => exact sameMemory_devWrite fun _ => rfl
  case ms3 => exact sameMemory_devWrite fun _ => rfl
  case ms4 => exact sameMemory_devWrite fun _ => rfl
  all_goals exact leads_fault _

theorem execPputc_sameMemory (b : Byte) (s : State) : Leads (execPputc b s) (SameMemory s) := by
  unfold execPputc
  cases s.current.ms
  case ms1 => exact .ite (sameMemory_raise _) (sameMemory_devRead fun _ _ => .ite rfl rfl)
  case ms2 => exact sameMemory_devWrite fun _ => rfl
  all_goals exact leads_fault _

theorem execPgetc_sameMemory (s : State) : Leads (execPgetc s) (SameMemory s) := by
  unfold execPgetc
  cases s.current.ms
  case ms1 => exact .ite (sameMemory_raise _) (sameMemory_devRead fun _ _ => .ite rfl rfl)
  case ms2 => exact sameMemory_devRead fun _ _ => rfl
  all_goals exact leads_fault _

theorem execBringup_sameMemory (s : State) : Leads (execBringup s) (SameMemory s) := by
  unfold execBringup
  cases s.current.ms
  case ms1 => exact leads_next rfl
  case ms2 => exact leads_next (.ite rfl rfl)
  all_goals exact leads_fault _

theorem execPdown_sameMemory (mode : PowerMode) (s : State) : Leads (execPdown mode s) (SameMemory s) := by
  unfold execPdown
  cases s.current.ms
  case ms1 => exact leads_next rfl
  case ms2 => exact leads_next (.ite rfl rfl)
  all_goals exact leads_fault _

theorem execIrqoff_sameMemory (s : State) : Leads (execIrqoff s) (SameMemory s) := by
  unfold execIrqoff
  cases s.current.ms
  case ms1 => exact leads_next rfl
  all_goals exact leads_fault _

theorem execIrqon_sameMemory (s : State) : Leads (execIrqon s) (SameMemory s) := by
  unfold execIrqon
  cases s.current.ms
  case ms1 => exact leads_next rfl
  all_goals exact leads_fault _

theorem execRdtick_sameMemory (s : State) : Leads (execRdtick s) (SameMemory s) := by
  unfold execRdtick
  cases s.current.ms
  case ms1 => exact leads_next rfl
  all_goals exact leads_fault _

/-! ### The commands that store -/

theorem execTryput_storesWithin (k : RingId) (b : Byte) (s : State) :
    Leads (execTryput k b s) (StoresWithin (storedBytes (.tryput k b) s) s) := by
  unfold execTryput storedBytes
  cases s.current.ms
  case ms1 => exact storesWithin_of_sameMemory (.ite (sameMemory_raise _) (leads_next rfl))
  case ms2 =>
    exact .ite_storesWithin (storesWithin_of_sameMemory (leads_next rfl))
      (storesWithin_writeRingSlot fun _ => rfl)
  case ms3 => exact storesWithin_setRingW rfl
  all_goals exact leads_fault _

theorem execTryget_storesWithin (k : RingId) (s : State) :
    Leads (execTryget k s) (StoresWithin (storedBytes (.tryget k) s) s) := by
  unfold execTryget storedBytes
  cases s.current.ms
  case ms1 => exact storesWithin_of_sameMemory (.ite (sameMemory_raise _) (leads_next rfl))
  case ms2 => exact storesWithin_of_sameMemory (.ite (leads_next rfl) (sameMemory_readRingSlot fun _ => rfl))
  case ms3 => exact storesWithin_setRingR rfl
  all_goals exact leads_fault _

theorem execChinit_storesWithin (s : State) : Leads (execChinit s) (StoresWithin (storedBytes .chinit s) s) := by
  unfold execChinit storedBytes
  cases s.current.ms
  case ms1 => exact storesWithin_of_sameMemory (.ite (sameMemory_raise _) (sameMemory_devRead fun _ _ => rfl))
  case ms2 => exact storesWithin_of_sameMemory (sameMemory_devWrite fun _ => rfl)
  case ms3 => exact storesWithin_of_sameMemory (sameMemory_devWrite fun _ => rfl)
  case ms4 => exact storesWithin_setRingW rfl
  case ms5 => exact storesWithin_setRingR rfl
  case ms6 => exact storesWithin_setRingW rfl
  case ms7 => exact storesWithin_setRingR rfl
  case ms8 => exact storesWithin_of_sameMemory (sameMemory_devWrite fun _ => rfl)
  case ms9 => exact storesWithin_of_sameMemory (leads_next rfl)

theorem execPutc_storesWithin (b : Byte) (s : State) :
    Leads (execPutc b s) (StoresWithin (storedBytes (.putc b) s) s) := by
  unfold execPutc storedBytes
  cases s.current.ms
  case ms1 => exact storesWithin_of_sameMemory (.ite (leads_next rfl) (sameMemory_raise _))
  case ms2 =>
    exact .ite_storesWithin (storesWithin_of_sameMemory (leads_next rfl))
      (storesWithin_writeRingSlot fun _ => rfl)
  case ms3 => exact storesWithin_setRingW rfl
  case ms4 => exact storesWithin_of_sameMemory (sameMemory_devRead fun _ _ => rfl)
  case ms5 => exact storesWithin_of_sameMemory (sameMemory_devWrite fun _ => rfl)
  all_goals exact leads_fault _

theorem execGetc_storesWithin (s : State) : Leads (execGetc s) (StoresWithin (storedBytes .getc s) s) := by
  unfold execGetc storedBytes
  cases s.current.ms
  case ms1 => exact storesWithin_of_sameMemory (.ite (leads_next rfl) (sameMemory_raise _))
  case ms2 => exact storesWithin_of_sameMemory (.ite (leads_next rfl) (sameMemory_readRingSlot fun _ => rfl))
  case ms3 => exact storesWithin_setRingR rfl
  all_goals exact leads_fault _

/-- HOST's micro-step of any command stores within the bytes that storedBytes names. -/
theorem exec_storesWithin (i : Instr) (s : State) : Leads (exec i s) (StoresWithin (storedBytes i s) s) := by
  cases i with
  | rd slot => exact storesWithin_of_sameMemory (execRd_sameMemory slot s)
  | wr slot => exact storesWithin_of_sameMemory (execWr_sameMemory slot s)
  | rdbit slot bit => exact storesWithin_of_sameMemory (execRdbit_sameMemory slot bit s)
  | wrbit slot bit v => exact storesWithin_of_sameMemory (execWrbit_sameMemory slot bit v s)
  | poll slot bit v => exact storesWithin_of_sameMemory (execPoll_sameMemory slot bit v s)
  | tryput k b => exact execTryput_storesWithin k b s
  | tryget k => exact execTryget_storesWithin k s
  | isfull k => exact storesWithin_of_sameMemory (execIsfull_sameMemory k s)
  | isempty k => exact storesWithin_of_sameMemory (execIsempty_sameMemory k s)
  | count k => exact storesWithin_of_sameMemory (execCount_sameMemory k s)
  | uinit => exact storesWithin_of_sameMemory (execUinit_sameMemory s)
  | chinit => exact execChinit_storesWithin s
  | pputc b => exact storesWithin_of_sameMemory (execPputc_sameMemory b s)
  | pgetc => exact storesWithin_of_sameMemory (execPgetc_sameMemory s)
  | putc b => exact execPutc_storesWithin b s
  | getc => exact execGetc_storesWithin s
  | bringup => exact storesWithin_of_sameMemory (execBringup_sameMemory s)
  | pdown mode => exact storesWithin_of_sameMemory (execPdown_sameMemory mode s)
  | irqoff => exact storesWithin_of_sameMemory (execIrqoff_sameMemory s)
  | irqon => exact storesWithin_of_sameMemory (execIrqon_sameMemory s)
  | rdtick => exact storesWithin_of_sameMemory (execRdtick_sameMemory s)

/-- Settles O26: a byte outside the stored range reads as before, whichever the command. -/
theorem commandsStoreOnlyTheirBytes : Obligations.CommandsStoreOnlyTheirBytes := by
  unfold Obligations.CommandsStoreOnlyTheirBytes
  intro i s t a h ha
  exact exec_storesWithin i s t h a ha

end Sys2Proof.Machine
end

section
/-! SUPPORT. The encoding (spec/30_encoding.md R131 to R145): which fields make a word the encoding of given operands,
what each format reads, and which words a row of the opcode map selects (R138). -/

namespace Sys2Proof

open Laws.OpcodeOfWord (opcode_encodeB opcode_encodeQ)

/-! ### The fields of an encoded word -/

/-- A field is a quotient's remainder. -/
theorem wordField_eq_div_mod (w : Word) (lo len : Nat) : wordField w lo len = w.toNat / 2 ^ lo % 2 ^ len := by
  simp [wordField, Nat.shiftRight_eq_div_pow]

/-- A word is that of a number below 2^32 exactly when it counts to it. -/
theorem ofNat_eq_iff {n : Nat} {w : Word} (h : n < 2 ^ 32) : BitVec.ofNat 32 n = w ↔ w.toNat = n := by
  rw [← BitVec.toNat_inj, BitVec.toNat_ofNat, Nat.mod_eq_of_lt h, eq_comm]

section

variable {w : Word} {opc : Nat} (ho : opc < 256)
include ho

theorem opcodeWord_eq_iff : BitVec.ofNat 32 (opc * 2 ^ 24) = w ↔ wordField w 24 8 = opc ∧ wordField w 0 24 = 0 := by
  have hw := w.isLt
  rw [ofNat_eq_iff (by omega)]
  simp only [wordField_eq_div_mod]
  omega

theorem encodeS_eq_iff {slot : Nat} (hs : slot < 256) : encodeS opc slot = w ↔
    wordField w 24 8 = opc ∧ wordField w 16 8 = slot ∧ wordField w 0 16 = 0 := by
  have hw := w.isLt
  rw [encodeS, ofNat_eq_iff (by omega)]
  simp only [wordField_eq_div_mod]
  omega

theorem encodeB_eq_iff {slot bit : Nat} {v : Bool} (hs : slot < 256) (hb : bit < 32) : encodeB opc slot bit v = w ↔
    wordField w 24 8 = opc ∧ wordField w 16 8 = slot ∧ wordField w 13 3 = 0 ∧ wordField w 8 5 = bit ∧
      wordField w 1 7 = 0 ∧ wordField w 0 1 = v.toNat := by
  have hw := w.isLt
  have hv : v.toNat < 2 := Bool.toNat_lt v
  rw [encodeB, ofNat_eq_iff (by omega)]
  simp only [wordField_eq_div_mod]
  omega

theorem encodeQ_eq_iff {ring : RingId} {byte : Byte} : encodeQ opc ring byte = w ↔
    wordField w 24 8 = opc ∧ wordField w 17 7 = 0 ∧ wordField w 16 1 = ring.number ∧ wordField w 8 8 = 0 ∧
      wordField w 0 8 = byte.toNat := by
  have hw := w.isLt
  have hb := byte.isLt
  have hk : ring.number < 2 := by cases ring <;> decide
  rw [encodeQ, ofNat_eq_iff (by omega)]
  simp only [wordField_eq_div_mod]
  omega

theorem encodeD_eq_iff {byte : Byte} : encodeD opc byte = w ↔
    wordField w 24 8 = opc ∧ wordField w 8 16 = 0 ∧ wordField w 0 8 = byte.toNat := by
  have hw := w.isLt
  have hb := byte.isLt
  rw [encodeD, ofNat_eq_iff (by omega)]
  simp only [wordField_eq_div_mod]
  omega

theorem encodeM_eq_iff {mode : PowerMode} : encodeM opc mode = w ↔
    wordField w 24 8 = opc ∧ wordField w 1 23 = 0 ∧ wordField w 0 1 = mode.number := by
  have hw := w.isLt
  have hm : mode.number < 2 := by cases mode <;> decide
  rw [encodeM, ofNat_eq_iff (by omega)]
  simp only [wordField_eq_div_mod]
  omega

end

/-! ### What the formats read -/

theorem whenZero_eq_ok {zero : Bool} {i j : Instr} : whenZero zero i = .ok j ↔ zero = true ∧ i = j := by
  cases zero <;> simp [whenZero]

theorem ringOf_eq_iff {w : Word} {ring : RingId} : ringOf w = ring ↔ wordField w 16 1 = ring.number := by
  have h := wordField_lt w 16 1
  unfold ringOf
  split <;> cases ring <;> simp [RingId.number] <;> omega

theorem wordField_beq_one_iff {w : Word} {v : Bool} :
    (wordField w 0 1 == 1) = v ↔ wordField w 0 1 = v.toNat := by
  have h := wordField_lt w 0 1
  cases v <;> simp
  omega

theorem ite_powerMode_eq_iff {w : Word} {mode : PowerMode} :
    (if wordField w 0 1 = 1 then PowerMode.standby else .stop) = mode ↔ wordField w 0 1 = mode.number := by
  have h := wordField_lt w 0 1
  split <;> cases mode <;> simp [PowerMode.number] <;> omega

/-- A byte is a number's exactly when it counts to it. -/
theorem ofNat_wordField_eq_iff {w : Word} {lo : Nat} {byte : Byte} :
    BitVec.ofNat 8 (wordField w lo 8) = byte ↔ wordField w lo 8 = byte.toNat := by
  rw [← BitVec.toNat_inj, BitVec.toNat_ofNat, Nat.mod_eq_of_lt (wordField_lt w lo 8)]

/-- A field is 0 exactly when both its parts are. -/
theorem wordField_add_eq_zero_iff (w : Word) (lo m n : Nat) :
    wordField w lo (m + n) = 0 ↔ wordField w (lo + m) n = 0 ∧ wordField w lo m = 0 := by
  simp only [wordField_eq_div_mod, pow_add, Nat.mod_mul, ← Nat.div_div_eq_div_mul]
  simp [and_comm]

section

variable {w : Word} {opc : Nat} {j : Instr} (hopc : wordField w 24 8 = opc)
include hopc

theorem formatA_eq_ok_iff {i : Instr} : formatA w i = .ok j ↔ BitVec.ofNat 32 (opc * 2 ^ 24) = w ∧ i = j := by
  have ho : opc < 256 := hopc ▸ wordField_lt w 24 8
  rw [formatA, whenZero_eq_ok, beq_iff_eq, opcodeWord_eq_iff ho, and_iff_right hopc]

theorem formatS_eq_ok_iff {i : Nat → Instr} :
    formatS w i = .ok j ↔ ∃ slot < 256, encodeS opc slot = w ∧ i slot = j := by
  have ho : opc < 256 := hopc ▸ wordField_lt w 24 8
  rw [formatS, whenZero_eq_ok, beq_iff_eq]
  constructor
  · rintro ⟨hzero, rfl⟩
    have hs := wordField_lt w 16 8
    exact ⟨_, hs, (encodeS_eq_iff ho hs).mpr ⟨hopc, rfl, hzero⟩, rfl⟩
  · rintro ⟨slot, hs, hw, rfl⟩
    obtain ⟨-, hslot, hzero⟩ := (encodeS_eq_iff ho hs).mp hw
    exact ⟨hzero, by rw [hslot]⟩

theorem formatB_eq_ok_iff {i : Nat → Nat → Bool → Instr} :
    formatB w i = .ok j ↔ ∃ slot < 256, ∃ bit < 32, ∃ v, encodeB opc slot bit v = w ∧ i slot bit v = j := by
  have ho : opc < 256 := hopc ▸ wordField_lt w 24 8
  rw [formatB, whenZero_eq_ok, Bool.and_eq_true, beq_iff_eq, beq_iff_eq]
  constructor
  · rintro ⟨⟨hhigh, hlow⟩, rfl⟩
    have hs := wordField_lt w 16 8
    have hb := wordField_lt w 8 5
    exact ⟨_, hs, _, hb, _, (encodeB_eq_iff ho hs hb).mpr
      ⟨hopc, rfl, hhigh, rfl, hlow, wordField_beq_one_iff.mp rfl⟩, rfl⟩
  · rintro ⟨slot, hs, bit, hb, v, hw, rfl⟩
    obtain ⟨-, hslot, hhigh, hbit, hlow, hv⟩ := (encodeB_eq_iff ho hs hb).mp hw
    exact ⟨⟨hhigh, hlow⟩, by rw [hslot, hbit, wordField_beq_one_iff.mpr hv]⟩

theorem formatB0_eq_ok_iff {i : Nat → Nat → Instr} :
    formatB0 w i = .ok j ↔ ∃ slot < 256, ∃ bit < 32, encodeB opc slot bit false = w ∧ i slot bit = j := by
  have ho : opc < 256 := hopc ▸ wordField_lt w 24 8
  rw [formatB0, whenZero_eq_ok, Bool.and_eq_true, beq_iff_eq, beq_iff_eq, wordField_add_eq_zero_iff w 0 1 7]
  constructor
  · rintro ⟨⟨hhigh, hlow, hv⟩, rfl⟩
    have hs := wordField_lt w 16 8
    have hb := wordField_lt w 8 5
    exact ⟨_, hs, _, hb, (encodeB_eq_iff ho hs hb).mpr ⟨hopc, rfl, hhigh, rfl, hlow, hv⟩, rfl⟩
  · rintro ⟨slot, hs, bit, hb, hw, rfl⟩
    obtain ⟨-, hslot, hhigh, hbit, hlow, hv⟩ := (encodeB_eq_iff ho hs hb).mp hw
    exact ⟨⟨hhigh, hlow, hv⟩, by rw [hslot, hbit]⟩

theorem formatQ_eq_ok_iff {i : RingId → Byte → Instr} :
    formatQ w i = .ok j ↔ ∃ ring byte, encodeQ opc ring byte = w ∧ i ring byte = j := by
  have ho : opc < 256 := hopc ▸ wordField_lt w 24 8
  rw [formatQ, whenZero_eq_ok, Bool.and_eq_true, beq_iff_eq, beq_iff_eq]
  constructor
  · rintro ⟨⟨hhigh, hlow⟩, rfl⟩
    exact ⟨_, _, (encodeQ_eq_iff ho).mpr
      ⟨hopc, hhigh, ringOf_eq_iff.mp rfl, hlow, ofNat_wordField_eq_iff.mp rfl⟩, rfl⟩
  · rintro ⟨ring, byte, hw, rfl⟩
    obtain ⟨-, hhigh, hring, hlow, hbyte⟩ := (encodeQ_eq_iff ho).mp hw
    exact ⟨⟨hhigh, hlow⟩, by rw [ringOf_eq_iff.mpr hring, ofNat_wordField_eq_iff.mpr hbyte]⟩

theorem formatQ0_eq_ok_iff {i : RingId → Instr} :
    formatQ0 w i = .ok j ↔ ∃ ring, encodeQ opc ring 0 = w ∧ i ring = j := by
  have ho : opc < 256 := hopc ▸ wordField_lt w 24 8
  rw [formatQ0, whenZero_eq_ok, Bool.and_eq_true, beq_iff_eq, beq_iff_eq, wordField_add_eq_zero_iff w 0 8 8]
  constructor
  · rintro ⟨⟨hhigh, hlow, hbyte⟩, rfl⟩
    exact ⟨_, (encodeQ_eq_iff ho).mpr ⟨hopc, hhigh, ringOf_eq_iff.mp rfl, hlow, hbyte⟩, rfl⟩
  · rintro ⟨ring, hw, rfl⟩
    obtain ⟨-, hhigh, hring, hlow, hbyte⟩ := (encodeQ_eq_iff ho).mp hw
    exact ⟨⟨hhigh, hlow, hbyte⟩, by rw [ringOf_eq_iff.mpr hring]⟩

theorem formatD_eq_ok_iff {i : Byte → Instr} :
    formatD w i = .ok j ↔ ∃ byte, encodeD opc byte = w ∧ i byte = j := by
  have ho : opc < 256 := hopc ▸ wordField_lt w 24 8
  rw [formatD, whenZero_eq_ok, beq_iff_eq]
  constructor
  · rintro ⟨hzero, rfl⟩
    exact ⟨_, (encodeD_eq_iff ho).mpr ⟨hopc, hzero, ofNat_wordField_eq_iff.mp rfl⟩, rfl⟩
  · rintro ⟨byte, hw, rfl⟩
    obtain ⟨-, hzero, hbyte⟩ := (encodeD_eq_iff ho).mp hw
    exact ⟨hzero, by rw [ofNat_wordField_eq_iff.mpr hbyte]⟩

theorem formatM_eq_ok_iff {i : PowerMode → Instr} :
    formatM w i = .ok j ↔ ∃ mode, encodeM opc mode = w ∧ i mode = j := by
  have ho : opc < 256 := hopc ▸ wordField_lt w 24 8
  rw [formatM, whenZero_eq_ok, beq_iff_eq]
  constructor
  · rintro ⟨hzero, rfl⟩
    exact ⟨_, (encodeM_eq_iff ho).mpr ⟨hopc, hzero, ite_powerMode_eq_iff.mp rfl⟩, rfl⟩
  · rintro ⟨mode, hw, rfl⟩
    obtain ⟨-, hzero, hmode⟩ := (encodeM_eq_iff ho).mp hw
    exact ⟨hzero, by rw [ite_powerMode_eq_iff.mpr hmode]⟩

end

/-! ### The round trip (R141) -/

section

variable {opc : Nat}

theorem decode_encodeS {i : Nat → Instr} (h : ∀ w, wordField w 24 8 = opc → decode w = formatS w i)
    (ho : opc < 256) {slot : Nat} (hs : slot < 256) : decode (encodeS opc slot) = .ok (i slot) := by
  have hopc := ((encodeS_eq_iff ho hs).mp rfl).1
  rw [h _ hopc]
  exact (formatS_eq_ok_iff hopc).mpr ⟨slot, hs, rfl, rfl⟩

theorem decode_encodeB {i : Nat → Nat → Bool → Instr} (h : ∀ w, wordField w 24 8 = opc → decode w = formatB w i)
    (ho : opc < 256) {slot bit : Nat} (hs : slot < 256) (hb : bit < 32) (v : Bool) :
    decode (encodeB opc slot bit v) = .ok (i slot bit v) := by
  have hopc := opcode_encodeB opc slot bit v ho hs hb
  rw [h _ hopc]
  exact (formatB_eq_ok_iff hopc).mpr ⟨slot, hs, bit, hb, v, rfl, rfl⟩

theorem decode_encodeQ0 {i : RingId → Instr} (h : ∀ w, wordField w 24 8 = opc → decode w = formatQ0 w i)
    (ho : opc < 256) (ring : RingId) : decode (encodeQ opc ring 0) = .ok (i ring) := by
  have hopc := opcode_encodeQ opc ring 0 ho
  rw [h _ hopc]
  exact (formatQ0_eq_ok_iff hopc).mpr ⟨ring, rfl, rfl⟩

theorem decode_encodeD {i : Byte → Instr} (h : ∀ w, wordField w 24 8 = opc → decode w = formatD w i)
    (ho : opc < 256) (byte : Byte) : decode (encodeD opc byte) = .ok (i byte) := by
  have hopc := ((encodeD_eq_iff ho (byte := byte)).mp rfl).1
  rw [h _ hopc]
  exact (formatD_eq_ok_iff hopc).mpr ⟨byte, rfl, rfl⟩

end

/-- Settles O1: the opcode names the format, and the fields are those the word was made of. -/
theorem encodeThenDecodeGivesTheCommand : Obligations.EncodeThenDecodeGivesTheCommand := by
  unfold Obligations.EncodeThenDecodeGivesTheCommand
  intro i hi
  cases i
  case rd slot | wr slot =>
    have hs : slot < 256 := by simpa [Instr.wellFormed] using hi
    exact decode_encodeS (fun w h => by simp only [decode, h]) (by decide) hs
  case rdbit slot bit =>
    obtain ⟨hs, hb⟩ : slot < 256 ∧ bit < 32 := by simpa [Instr.wellFormed] using hi
    have hopc := opcode_encodeB 0x03 slot bit false (by decide) hs hb
    rw [encode, decode, hopc]
    exact (formatB0_eq_ok_iff hopc).mpr ⟨slot, hs, bit, hb, rfl, rfl⟩
  case wrbit slot bit v | poll slot bit v =>
    obtain ⟨hs, hb⟩ : slot < 256 ∧ bit < 32 := by simpa [Instr.wellFormed] using hi
    exact decode_encodeB (fun w h => by simp only [decode, h]) (by decide) hs hb v
  case tryput ring byte =>
    have hopc := opcode_encodeQ 0x10 ring byte (by decide)
    rw [encode, decode, hopc]
    exact (formatQ_eq_ok_iff hopc).mpr ⟨ring, byte, rfl, rfl⟩
  case tryget ring | isfull ring | isempty ring | count ring =>
    exact decode_encodeQ0 (fun w h => by simp only [decode, h]) (by decide) ring
  case pputc byte | putc byte => exact decode_encodeD (fun w h => by simp only [decode, h]) (by decide) byte
  case pdown mode =>
    have hopc := ((encodeM_eq_iff (by decide)).mp (rfl : encodeM 0x31 mode = _)).1
    rw [encode, decode, hopc]
    exact (formatM_eq_ok_iff hopc).mpr ⟨mode, rfl, rfl⟩
  case uinit | chinit | pgetc | getc | bringup | irqoff | irqon | rdtick => rfl

/-- Settles O3: what a format reads without an error it also writes. The cases h_1 to h_21 are the opcodes of R138 in
their order, grouped by format, and h_22 is an opcode that is not listed. -/
theorem decodedWordEncodesBack : Obligations.DecodedWordEncodesBack := by
  unfold Obligations.DecodedWordEncodesBack
  intro w i h
  unfold decode at h
  split at h
  case h_1 hopc | h_2 hopc =>
    obtain ⟨slot, hs, hw, rfl⟩ := (formatS_eq_ok_iff hopc).mp h
    exact ⟨decide_eq_true hs, hw⟩
  case h_3 hopc =>
    obtain ⟨slot, hs, bit, hb, hw, rfl⟩ := (formatB0_eq_ok_iff hopc).mp h
    exact ⟨by simp [Instr.wellFormed, hs, hb], hw⟩
  case h_4 hopc | h_5 hopc =>
    obtain ⟨slot, hs, bit, hb, v, hw, rfl⟩ := (formatB_eq_ok_iff hopc).mp h
    exact ⟨by simp [Instr.wellFormed, hs, hb], hw⟩
  case h_6 hopc =>
    obtain ⟨ring, byte, hw, rfl⟩ := (formatQ_eq_ok_iff hopc).mp h
    exact ⟨rfl, hw⟩
  case h_7 hopc | h_8 hopc | h_9 hopc | h_10 hopc =>
    obtain ⟨ring, hw, rfl⟩ := (formatQ0_eq_ok_iff hopc).mp h
    exact ⟨rfl, hw⟩
  case h_13 hopc | h_15 hopc =>
    obtain ⟨byte, hw, rfl⟩ := (formatD_eq_ok_iff hopc).mp h
    exact ⟨rfl, hw⟩
  case h_18 hopc =>
    obtain ⟨mode, hw, rfl⟩ := (formatM_eq_ok_iff hopc).mp h
    exact ⟨rfl, hw⟩
  case h_11 hopc | h_12 hopc | h_14 hopc | h_16 hopc | h_17 hopc | h_19 hopc | h_20 hopc | h_21 hopc =>
    obtain ⟨hw, rfl⟩ := (formatA_eq_ok_iff hopc).mp h
    exact ⟨rfl, hw⟩
  case h_22 => cases h

/-! ### The rows of the opcode map (R138) -/

/-- The bit is in one of the fields, each given by its lowest bit and its length. -/
def inFields (fields : List (Nat × Nat)) (j : Nat) : Bool :=
  fields.any fun f => decide (f.1 ≤ j) && decide (j < f.1 + f.2)

/-- The row fixes the opcode, and to 0 the fields given: its mask covers just their bits. -/
@[reducible] def OpcodeRow.Fixes (r : OpcodeRow) (fields : List (Nat × Nat)) : Prop :=
  (∀ j : Fin 32, r.mask.getLsbD j = inFields ((24, 8) :: fields) j) ∧ r.mtch &&& r.mask = r.mtch ∧
    ∀ f ∈ fields, wordField r.mtch f.1 f.2 = 0

/-- The rows of an opcode. -/
def rowsOf (opc : Nat) : List OpcodeRow := opcodeMap.filter fun r => wordField r.mtch 24 8 == opc

/-- Two words agree under a mask exactly when they agree in the bits that the mask covers. -/
theorem and_eq_and_iff (w x m : Word) :
    w &&& m = x &&& m ↔ ∀ j < 32, m.getLsbD j = true → w.getLsbD j = x.getLsbD j := by
  rw [BitVec.eq_of_getLsbD_eq_iff]
  refine forall₂_congr fun j _ => ?_
  cases hm : m.getLsbD j <;> simp [BitVec.getLsbD_and, hm]

/-- Two words agree in a field exactly when they agree in its bits. -/
theorem wordField_eq_iff (w x : Word) (lo len : Nat) : wordField w lo len = wordField x lo len ↔
    ∀ j < 32, lo ≤ j → j < lo + len → w.getLsbD j = x.getLsbD j := by
  rw [wordField, wordField, BitVec.toNat_inj]
  constructor
  · intro h j _ hlo hhi
    have hbit := congrArg (·.getLsbD (j - lo)) h
    have hlen : j - lo < len := by omega
    simpa [hlen, Nat.add_sub_cancel' hlo] using hbit
  · intro h
    apply BitVec.eq_of_getLsbD_eq
    intro j hj
    by_cases hin : lo + j < 32
    · simpa [hj] using h (lo + j) hin (by omega) (by omega)
    · simp [hj, BitVec.getLsbD_of_ge _ _ (Nat.le_of_not_lt hin)]

theorem and_eq_and_iff_wordField {w x m : Word} {fields : List (Nat × Nat)}
    (h : ∀ j : Fin 32, m.getLsbD j = inFields fields j) :
    w &&& m = x &&& m ↔ ∀ f ∈ fields, wordField w f.1 f.2 = wordField x f.1 f.2 := by
  rw [and_eq_and_iff]
  simp only [wordField_eq_iff]
  constructor
  · intro hm f hf j hj hlo hhi
    exact hm j hj ((h ⟨j, hj⟩).trans (List.any_eq_true.mpr ⟨f, hf, by simp [hlo, hhi]⟩))
  · intro hf j hj hm
    obtain ⟨f, hmem, hin⟩ := List.any_eq_true.mp ((h ⟨j, hj⟩).symm.trans hm)
    obtain ⟨hlo, hhi⟩ : f.1 ≤ j ∧ j < f.1 + f.2 := by simpa using hin
    exact hf f hmem j hj hlo hhi

theorem OpcodeRow.Fixes.selects_iff {r : OpcodeRow} {fields : List (Nat × Nat)} (h : r.Fixes fields) (w : Word) :
    r.selects w = true ↔ wordField w 24 8 = wordField r.mtch 24 8 ∧ ∀ f ∈ fields, wordField w f.1 f.2 = 0 := by
  obtain ⟨hmask, hmtch, hzero⟩ := h
  rw [OpcodeRow.selects, beq_iff_eq]
  nth_rw 1 [← hmtch]
  rw [and_eq_and_iff_wordField hmask, List.forall_mem_cons]
  exact and_congr_right' (forall₂_congr fun f hf => by rw [hzero f hf])

theorem opcodeMap_opcodes : opcodeMap.map (fun r => wordField r.mtch 24 8) =
    [0x01, 0x02, 0x03, 0x04, 0x05, 0x10, 0x11, 0x12, 0x13, 0x14, 0x20, 0x21, 0x22, 0x23, 0x24, 0x25, 0x30, 0x31,
      0x40, 0x41, 0x42] := by
  decide

theorem rowsOf_eq_nil {opc : Nat} (h : opc ∉ opcodeMap.map fun r => wordField r.mtch 24 8) : rowsOf opc = [] := by
  refine List.filter_eq_nil_iff.mpr fun r hr hopc => h ?_
  exact List.mem_map.mpr ⟨r, hr, beq_iff_eq.mp hopc⟩

/-- A row that selects a word has the word's opcode: every mask covers w[31:24]. -/
theorem opcode_of_selects {r : OpcodeRow} (hr : r ∈ opcodeMap) {w : Word} (h : r.selects w = true) :
    wordField r.mtch 24 8 = wordField w 24 8 := by
  have hmask : ∀ r ∈ opcodeMap, r.mask.extractLsb' 24 8 = BitVec.allOnes 8 := by decide
  rw [OpcodeRow.selects, beq_iff_eq] at h
  rw [wordField, ← h, BitVec.extractLsb'_and, hmask r hr, BitVec.and_allOnes, wordField]

theorem filter_selects (w : Word) : opcodeMap.filter (fun r => r.selects w) =
    (rowsOf (wordField w 24 8)).filter (fun r => r.selects w) := by
  rw [rowsOf, List.filter_filter]
  refine List.filter_congr fun r hr => ?_
  rw [Bool.eq_self_and, beq_iff_eq]
  exact opcode_of_selects hr

/-- R138 for a word and what it decodes to: just the row of the command's mnemonic selects the word, or none. -/
def FollowsMap (w : Word) : Except DecodeError Instr → Prop
  | .ok i => (opcodeMap.filter fun r => r.selects w).map (fun r => r.mnemonic) = [i.mnemonic]
  | .error _ => opcodeMap.filter (fun r => r.selects w) = []

theorem followsMap_whenZero {w : Word} {opc : Nat} {r : OpcodeRow} {fields : List (Nat × Nat)} {zero : Bool}
    {i : Instr} (hopc : wordField w 24 8 = opc) (hrows : rowsOf opc = [r]) (hr : r.Fixes fields)
    (hz : zero = true ↔ ∀ f ∈ fields, wordField w f.1 f.2 = 0) (hn : r.mnemonic = i.mnemonic) :
    FollowsMap w (whenZero zero i) := by
  subst hopc
  have hopc : wordField r.mtch 24 8 = wordField w 24 8 := by
    have hmem : r ∈ rowsOf (wordField w 24 8) := by simp [hrows]
    simpa using (List.mem_filter.mp hmem).2
  have hsel : r.selects w = zero := by
    rw [Bool.eq_iff_iff, hr.selects_iff, hz, and_iff_right hopc.symm]
  cases zero <;> simp [whenZero, FollowsMap, filter_selects, hrows, hsel, hn]

/-- Settles O2: the opcode leaves one row, and its mask asks for the zeros that the format asks for. The cases are those
of `decodedWordEncodesBack`, each with the fields that its format fixes to 0. -/
theorem decodeFollowsTheOpcodeMap : Obligations.DecodeFollowsTheOpcodeMap := by
  unfold Obligations.DecodeFollowsTheOpcodeMap
  intro w
  change FollowsMap w (decode w)
  unfold decode
  split
  case h_1 hopc | h_2 hopc =>
    exact followsMap_whenZero (fields := [(0, 16)]) hopc rfl (by decide) (by simp) rfl
  case h_3 hopc => exact followsMap_whenZero (fields := [(13, 3), (0, 8)]) hopc rfl (by decide) (by simp) rfl
  case h_4 hopc | h_5 hopc =>
    exact followsMap_whenZero (fields := [(13, 3), (1, 7)]) hopc rfl (by decide) (by simp) rfl
  case h_6 hopc => exact followsMap_whenZero (fields := [(17, 7), (8, 8)]) hopc rfl (by decide) (by simp) rfl
  case h_7 hopc | h_8 hopc | h_9 hopc | h_10 hopc =>
    exact followsMap_whenZero (fields := [(17, 7), (0, 16)]) hopc rfl (by decide) (by simp) rfl
  case h_13 hopc | h_15 hopc =>
    exact followsMap_whenZero (fields := [(8, 16)]) hopc rfl (by decide) (by simp) rfl
  case h_18 hopc => exact followsMap_whenZero (fields := [(1, 23)]) hopc rfl (by decide) (by simp) rfl
  case h_11 hopc | h_12 hopc | h_14 hopc | h_16 hopc | h_17 hopc | h_19 hopc | h_20 hopc | h_21 hopc =>
    exact followsMap_whenZero (fields := [(0, 24)]) hopc rfl (by decide) (by simp) rfl
  case h_22 =>
    rw [FollowsMap, filter_selects]
    have hunlisted : wordField w 24 8 ∉ opcodeMap.map fun r => wordField r.mtch 24 8 := by
      rw [opcodeMap_opcodes]
      simp only [List.mem_cons, List.not_mem_nil, or_false]
      tauto
    rw [rowsOf_eq_nil hunlisted, List.filter_nil]

/-- Settles O4: nine closed words. -/
theorem sampleCommandWordsDecode : Obligations.SampleCommandWordsDecode := by
  unfold Obligations.SampleCommandWordsDecode
  decide

end Sys2Proof
end

section
/-! SUPPORT. HOST's register access commands (spec/41_register_access.md R160 to R168): the checks of a HOST read and
of a HOST write as one fault each, the micro-steps that make them, and SCRATCH, which HOST alone writes. -/

namespace Sys2Proof.Machine

/-! ### A HOST read (R165) -/

/-- The first check of R165 that a HOST read of a mapped slot fails. -/
def hostReadFault (s : State) (r : Slot) : Option FaultCode :=
  if r = .uartData ∧ s.chen = true then some .ownershipViolation
  else if r.isUart = true ∧ s.uartEn = false then some .peripheralClockOff
  else none

section

variable {s : State} {n : Nat} {r : Slot} {v : Word} {c : FaultCode}

theorem hostRead_eq (hn : Slot.ofNumber n = some r) :
    hostRead s n = (hostReadFault s r).elim (.ok (s.regValue r, s.afterRead r)) fun c => .error (.raise c) := by
  simp only [hostRead, hn, hostReadFault, devRead, Bool.and_eq_true, beq_iff_eq, Bool.not_eq_true',
    and_comm (a := s.chen = true)]
  split_ifs <;> rfl

theorem hostRead_of_unmapped (hn : Slot.ofNumber n = none) : hostRead s n = .error (.raise .unmappedSlot) := by
  simp only [hostRead, hn]

theorem hostRead_of_fault (hn : Slot.ofNumber n = some r) (hc : hostReadFault s r = some c) :
    hostRead s n = .error (.raise c) := by
  rw [hostRead_eq hn, hc]
  rfl

theorem hostRead_of_readable (hn : Slot.ofNumber n = some r) (hdata : r = .uartData → s.chen = false)
    (huart : r.isUart = true → s.uartEn = true) : hostRead s n = .ok (s.regValue r, s.afterRead r) := by
  have hnone : hostReadFault s r = none := by
    unfold hostReadFault
    split_ifs with hown hoff
    · simp [hdata hown.1] at hown
    · simp [huart hoff.1] at hoff
    · rfl
  rw [hostRead_eq hn, hnone]
  rfl

/-! ### A HOST write (R166, R167) -/

/-- The first check of R166 and R167 that a HOST write of `v` to a mapped slot fails. -/
def hostWriteFault (s : State) (r : Slot) (v : Word) : Option FaultCode :=
  if r.notHosts = true ∨ (s.chen = true ∧ r.isUart = true) then some .ownershipViolation
  else if r.isPeripheral = true ∧ s.clockState ≠ .switched then some .peripheralBeforeSwitched
  else if r.isUart = true ∧ s.uartEn = false then some .peripheralClockOff
  else if v &&& r.reservedMask ≠ 0 then some .reservedBitWrite
  else if r = .uartData ∧ s.txe = false then some .txWhileBusy
  else none

/-- On a slot of HOST's the checks of R167 that concern the clock registers never fail. -/
theorem writeFault_of_hosts (hr : r.notHosts = false) (hchen : ¬ (s.chen = true ∧ r.isUart = true)) :
    writeFault s r v = hostWriteFault s r v := by
  have hcfgr : r ≠ .clkCfgr := by rintro rfl; cases hr
  have hpllcfg : r ≠ .clkPllcfg := by rintro rfl; cases hr
  have hcr : r ≠ .clkCr := by rintro rfl; cases hr
  simp [writeFault, hostWriteFault, Slot.reservedCode, hr, hchen, hcfgr, hpllcfg, hcr]

theorem hostWrite_eq (hn : Slot.ofNumber n = some r) :
    hostWrite s n v = (hostWriteFault s r v).elim (.ok (s.regWrite r v)) fun c => .error (.raise c) := by
  by_cases hown : r.notHosts = true ∨ (s.chen = true ∧ r.isUart = true)
  · rw [hostWriteFault, if_pos hown]
    obtain hr | ⟨hchen, huart⟩ := hown
    · simp [hostWrite, hn, hr]
    · simp [hostWrite, hn, hchen, huart]
  · obtain ⟨hr, hchen⟩ := not_or.mp hown
    have hr' : r.notHosts = false := Bool.eq_false_of_not_eq_true hr
    have hdev : hostWrite s n v = devWrite s r v := by simp [hostWrite, hn, hr', hchen]
    rw [hdev, devWrite, writeFault_of_hosts hr' hchen]
    cases hostWriteFault s r v <;> rfl

theorem hostWrite_of_unmapped (hn : Slot.ofNumber n = none) :
    hostWrite s n v = .error (.raise .unmappedSlot) := by
  simp only [hostWrite, hn]

theorem hostWrite_of_fault (hn : Slot.ofNumber n = some r) (hc : hostWriteFault s r v = some c) :
    hostWrite s n v = .error (.raise c) := by
  rw [hostWrite_eq hn, hc]
  rfl

theorem hostWrite_of_writable (hn : Slot.ofNumber n = some r) (hr : r.notHosts = false)
    (huart : r.isUart = true → s.chen = false ∧ s.uartEn = true)
    (hclock : r.isPeripheral = true → s.clockState = .switched) (hres : v &&& r.reservedMask = 0)
    (hdata : r = .uartData → s.txe = true) : hostWrite s n v = .ok (s.regWrite r v) := by
  have hnone : hostWriteFault s r v = none := by
    unfold hostWriteFault
    split_ifs with hown hearly hoff hbits hbusy
    · obtain h | ⟨hchen, h⟩ := hown
      · simp [hr] at h
      · simp [(huart h).1] at hchen
    · simp [hclock hearly.1] at hearly
    · simp [(huart hoff.1).2] at hoff
    · exact absurd hres hbits
    · simp [hdata hbusy.1] at hbusy
    · rfl
  rw [hostWrite_eq hn, hnone]
  rfl

end

/-! ### The micro-steps -/

section

variable {s : State} {slot bit : Nat} {v : Bool}

theorem exec_rd_ms1 (hms : s.current.ms = .ms1) :
    exec (.rd slot) s = commit s (hostRead s slot >>= fun p => .ok (p.2.doneWith p.1)) := by
  simp only [exec, execRd, hms]
  rfl

theorem exec_wr_ms1 (hms : s.current.ms = .ms1) :
    exec (.wr slot) s = commit s (hostWrite s slot s.current.arg >>= fun t => .ok t.done) := by
  simp only [exec, execWr, hms]
  rfl

theorem exec_rdbit_ms1 (hms : s.current.ms = .ms1) :
    exec (.rdbit slot bit) s =
      commit s (hostRead s slot >>= fun p => .ok (p.2.doneWith (if p.1.getLsbD bit then 1 else 0))) := by
  have hbit : ∀ b : Bool, (BitVec.ofBool b).setWidth 32 = if b then 1 else 0 := by decide
  simp only [exec, execRdbit, hms, hbit]
  rfl

theorem exec_wrbit_ms1 (hms : s.current.ms = .ms1) :
    exec (.wrbit slot bit v) s =
      commit s (hostRead s slot >>= fun p =>
        .ok { p.2 with current := { p.2.current with t := p.1, ms := .ms2 } }) := by
  simp only [exec, execWrbit, hms]
  rfl

theorem exec_wrbit_ms2 (hms : s.current.ms = .ms2) :
    exec (.wrbit slot bit v) s =
      commit s (hostWrite s slot (withBit s.current.t bit v) >>= fun t => .ok t.done) := by
  simp only [exec, execWrbit, hms]
  rfl

theorem exec_poll_ms1 (hms : s.current.ms = .ms1) :
    exec (.poll slot bit v) s =
      commit s (hostRead s slot >>= fun p => .ok (if p.1.getLsbD bit = v then p.2.done else p.2)) := by
  simp only [exec, execPoll, hms]
  rfl

variable {c : FaultCode}

/-- A HOST read that faults ends the micro-step of each reading command, with the fault recorded (R165, R311). -/
theorem exec_of_hostRead_error {i : Instr} (hms : s.current.ms = .ms1)
    (hi : i = .rd slot ∨ i = .rdbit slot bit ∨ i = .wrbit slot bit v ∨ i = .poll slot bit v)
    (hread : hostRead s slot = .error (.raise c)) : exec i s = .next (s.raise c) := by
  obtain rfl | rfl | rfl | rfl := hi
  · rw [exec_rd_ms1 hms, hread, error_bind, commit_raise]
  · rw [exec_rdbit_ms1 hms, hread, error_bind, commit_raise]
  · rw [exec_wrbit_ms1 hms, hread, error_bind, commit_raise]
  · rw [exec_poll_ms1 hms, hread, error_bind, commit_raise]

theorem exec_wr_of_error (hms : s.current.ms = .ms1)
    (hwrite : hostWrite s slot s.current.arg = .error (.raise c)) : exec (.wr slot) s = .next (s.raise c) := by
  rw [exec_wr_ms1 hms, hwrite, error_bind, commit_raise]

variable {r : Slot} (hn : Slot.ofNumber slot = some r)

include hn

theorem exec_rdbit_of_readable (hms : s.current.ms = .ms1) (hdata : r = .uartData → s.chen = false)
    (huart : r.isUart = true → s.uartEn = true) :
    exec (.rdbit slot bit) s =
      .next ((s.afterRead r).doneWith (if (s.regValue r).getLsbD bit then 1 else 0)) := by
  rw [exec_rdbit_ms1 hms, hostRead_of_readable hn hdata huart, ok_bind, commit_ok]

theorem exec_wrbit_of_readable (hms : s.current.ms = .ms1) (hdata : r = .uartData → s.chen = false)
    (huart : r.isUart = true → s.uartEn = true) :
    exec (.wrbit slot bit v) s =
      .next { s.afterRead r with current := { s.current with t := s.regValue r, ms := .ms2 } } := by
  rw [exec_wrbit_ms1 hms, hostRead_of_readable hn hdata huart, ok_bind, commit_ok, s.afterRead_current]

theorem exec_wrbit_of_writable (hms : s.current.ms = .ms2) (hr : r.notHosts = false)
    (huart : r.isUart = true → s.chen = false ∧ s.uartEn = true)
    (hclock : r.isPeripheral = true → s.clockState = .switched)
    (hres : withBit s.current.t bit v &&& r.reservedMask = 0) (hdata : r = .uartData → s.txe = true) :
    exec (.wrbit slot bit v) s = .next (s.regWrite r (withBit s.current.t bit v)).done := by
  rw [exec_wrbit_ms2 hms, hostWrite_of_writable hn hr huart hclock hres hdata, ok_bind, commit_ok]

end

/-! ### The statements about the commands -/

/-- Settles O11: the read passes its checks, and both commands complete with what it gives. -/
theorem rdAndRdbitGiveTheValue : Obligations.RdAndRdbitGiveTheValue := by
  unfold Obligations.RdAndRdbitGiveTheValue
  intro s slot bit r hms hn hdata huart
  refine ⟨?_, exec_rdbit_of_readable hn hms hdata huart⟩
  rw [exec_rd_ms1 hms, hostRead_of_readable hn hdata huart, ok_bind, commit_ok]

/-- Settles O12: the faults of a HOST read, slot by slot, and the four commands that begin with one. -/
theorem readsFaultInOrder : Obligations.ReadsFaultInOrder := by
  unfold Obligations.ReadsFaultInOrder
  intro s slot bit v i c hms hi hc
  apply exec_of_hostRead_error hms hi
  split at hc
  · next hn => exact Option.some.inj hc ▸ hostRead_of_unmapped hn
  · next r hn => exact hostRead_of_fault hn hc

/-- Settles O13: the write passes its checks. -/
theorem wrStoresTheArgument : Obligations.WrStoresTheArgument := by
  unfold Obligations.WrStoresTheArgument
  intro s slot r hms hn hr huart hclock hres hdata
  rw [exec_wr_ms1 hms, hostWrite_of_writable hn hr huart hclock hres hdata, ok_bind, commit_ok]

/-- Settles O14: the faults of a HOST write, slot by slot. -/
theorem wrFaultsInOrder : Obligations.WrFaultsInOrder := by
  unfold Obligations.WrFaultsInOrder
  intro s slot c hms hc
  apply exec_wr_of_error hms
  split at hc
  · next hn => exact Option.some.inj hc ▸ hostWrite_of_unmapped hn
  · next r hn => exact hostWrite_of_fault hn hc

/-- Settles O18: ms1 is a HOST read, ms2 a HOST write of the changed copy. -/
theorem wrbitReadsThenWrites : Obligations.WrbitReadsThenWrites := by
  unfold Obligations.WrbitReadsThenWrites
  intro s slot bit v r hn
  refine ⟨exec_wrbit_of_readable hn, exec_wrbit_of_writable hn, fun hms c hc => ?_⟩
  rw [exec_wrbit_ms2 hms, hostWrite_of_fault (v := withBit s.current.t bit v) hn hc, error_bind, commit_raise]

/-- Settles O19: the read passes its checks, and its bit decides between completion and a spin. -/
theorem pollSpinsUntilTheBit : Obligations.PollSpinsUntilTheBit := by
  unfold Obligations.PollSpinsUntilTheBit
  intro s slot bit v r hms hn hdata huart
  rw [exec_poll_ms1 hms, hostRead_of_readable hn hdata huart, ok_bind, commit_ok]
  exact ⟨fun hbit => by rw [if_pos hbit], fun hbit => by rw [if_neg hbit]⟩

/-! ### SCRATCH (R37, R168) -/

/-- The step leaves SCRATCH. -/
def KeepsScratch (s t : State) : Prop := t.scratch = s.scratch

/-- A sequencer write of a slot other than SCRATCH. -/
theorem gives_seqWrite_keepsScratch {s : State} {r : Slot} {v : Word} {q : SeqState} (hr : .scratch ≠ r) :
    Gives (seqWrite s r v q) (KeepsScratch s) :=
  gives_map (gives_devWrite (stored_regWrite_ne v hr nofun))

theorem gives_cseqStep_keepsScratch (s : State) : Gives (cseqStep s) (KeepsScratch s) := by
  have hwait : ∀ (p : Prop) [Decidable p] (q : SeqState),
      KeepsScratch s (if p then { s with seqState := q } else s) := fun p _ q => by split <;> rfl
  unfold cseqStep
  cases s.seqState
  case idle => exact gives_ok rfl
  case s2XoscWait => exact gives_ok (hwait _ _)
  case s3PllWait => exact gives_ok (hwait _ _)
  case s5SwitchWait => exact gives_ok (hwait _ _)
  case p4Wfe => exact gives_ok rfl
  case s4PrescInter =>
    change Gives (seqS4PrescInter s) _
    unfold seqS4PrescInter
    cases s.launch.variant.prescInter with
    | some p => exact gives_seqWrite_keepsScratch nofun
    | none => exact gives_ok rfl
  all_goals exact gives_seqWrite_keepsScratch nofun

/-- IRQE has no right to write SCRATCH. -/
theorem HandlerRun.keepsScratch {s t : State} (h : HandlerRun s t) : KeepsScratch s t := by
  induction h with
  | refl => rfl
  | tail _ access ih => exact (access.stored (q := .scratch) (by simp [handlerRights]) nofun).trans ih

theorem wakeStep_keepsScratch {s : State} (hp : s.pstate ≠ .standby) : KeepsScratch s (wakeStep s) := by
  unfold wakeStep
  split
  · rfl
  · obtain ⟨cr, cfgr, h⟩ := wakeFromStop_eq s
    rw [h]
    rfl
  · next h => exact absurd h hp

/-- No agent but HOST writes SCRATCH; a wake from standby resets it (R168, R206). -/
theorem perform_keepsScratch {m : Move} {s : State} (hm : m ≠ .host) (hp : s.pstate ≠ .standby) :
    Leads (perform m s) (KeepsScratch s) := by
  have hraise : ∀ c, KeepsScratch s (s.raise c) := fun _ => rfl
  cases m with
  | host => exact absurd rfl hm
  | cseq => exact leads_commit hraise (gives_cseqStep_keepsScratch s)
  | irqe =>
    refine leads_commit hraise ((gives_irqeStep s).mono ?_)
    rintro t (rfl | h)
    · rfl
    · exact h.keepsScratch
  | urx =>
    apply leads_next
    obtain ⟨-, h⟩ | ⟨b, rest, stat, byte, -, h⟩ := urxStep_cases s <;> rw [h] <;> rfl
  | wake => exact leads_next (wakeStep_keepsScratch hp)
  | portCmd c => exact leads_commit hraise (gives_cmdWrite fun _ _ _ => rfl)
  | osc | pll | clksw | tick | utx | portArg _ => exact leads_next rfl

theorem afterRead_scratch (s : State) : s.afterRead .scratch = s := afterRead_of_ne nofun

theorem regWrite_scratch (s : State) (v : Word) : s.regWrite .scratch v = { s with scratch := v } := by
  simp [State.regWrite]

/-- WRBIT SCRATCH's ms2 stores the changed copy: SCRATCH has no reserved bit, and is no peripheral slot (R37). -/
theorem exec_wrbit_scratch_ms2 {s : State} {i : Nat} {b : Bool} (hms : s.current.ms = .ms2) :
    exec (.wrbit 0 i b) s = .next (State.done { s with scratch := withBit s.current.t i b }) := by
  have hclear : withBit s.current.t i b &&& Slot.reservedMask .scratch = 0 := BitVec.and_zero
  rw [exec_wrbit_of_writable (r := .scratch) rfl hms rfl nofun nofun hclear nofun, regWrite_scratch]

theorem exec_rdbit_scratch {s : State} {i : Nat} (hms : s.current.ms = .ms1) :
    exec (.rdbit 0 i) s = .next (s.doneWith (if s.scratch.getLsbD i then 1 else 0)) := by
  rw [exec_rdbit_of_readable (r := .scratch) rfl hms nofun nofun, s.regValue_scratch, afterRead_scratch]

/-- Settles O20: both commands on a slot that is a plain word, and the other agents' steps, which leave it. -/
theorem scratchBitRoundTrip : Obligations.ScratchBitRoundTrip := by
  unfold Obligations.ScratchBitRoundTrip
  intro s i b hi
  refine ⟨fun hms => ?_, fun hms ht => ?_, fun m u w hm hp => perform_keepsScratch hm hp w⟩
  · rw [exec_wrbit_of_readable (r := .scratch) rfl hms nofun nofun, s.regValue_scratch, afterRead_scratch]
  · have hbits : ∀ j, (withBit s.scratch i b).getLsbD j = if j = i then b else s.scratch.getLsbD j :=
      fun j => getLsbD_withBit _ _ _ _ hi
    have hbit : (withBit s.scratch i b).getLsbD i = b := by rw [hbits, if_pos rfl]
    refine ⟨_, exec_wrbit_scratch_ms2 hms, rfl, ?_⟩
    rw [ht, State.done_scratch]
    refine ⟨hbit, fun j hj => by rw [hbits, if_neg hj], fun u hu hu1 => ?_⟩
    rw [exec_rdbit_scratch hu1, hu, hbit]

end Sys2Proof.Machine
end

section
/-! SUPPORT. The registers CSEQ writes (R36, R196, R198): the word a read-modify-write leaves, the checks of R167 that
concern CSEQ, and CSEQ's step for each value of SEQ_STATE (R65) as one equation. -/

namespace Sys2Proof.Machine

/-! ### Read-modify-writes -/

theorem rwMerge_withBit {m : Word} {i : Nat} (old v : Word) (b : Bool) (hi : i < 32) (hm : m.getLsbD i = true) :
    rwMerge m old (withBit v i b) = withBit (rwMerge m old v) i b := by
  apply BitVec.eq_of_getLsbD_eq
  intro j _
  simp only [getLsbD_rwMerge, getLsbD_withBit _ _ _ _ hi]
  by_cases hj : j = i
  · simp [hj, hm]
  · simp [hj]

theorem rwMerge_withField {m : Word} {lo len : Nat} (old v : Word) (x : BitVec len) (h : lo + len ≤ 32)
    (hm : ∀ j, lo ≤ j → j < lo + len → m.getLsbD j = true) :
    rwMerge m old (withField v lo x) = withField (rwMerge m old v) lo x := by
  apply BitVec.eq_of_getLsbD_eq
  intro j _
  simp only [getLsbD_rwMerge, getLsbD_withField _ _ _ _ h]
  by_cases hj : lo ≤ j ∧ j < lo + len
  · simp [hj, hm j hj.1 hj.2]
  · simp [hj]

/-- Writing back what was read changes nothing (R35). -/
theorem rwMerge_regValue (s : State) (r : Slot) : rwMerge r.rwMask (s.stored r) (s.regValue r) = s.stored r := by
  apply BitVec.eq_of_getLsbD_eq
  intro j _
  rw [getLsbD_rwMerge]
  split
  · next h => exact getLsbD_regValue_rw s h
  · rfl

theorem rwMerge_self (m w : Word) : rwMerge m w w = w := by
  apply BitVec.eq_of_getLsbD_eq
  intro j _
  rw [getLsbD_rwMerge, ite_self]

/-- A CLK_CR write that turns nothing off leaves the ready bits (R39). -/
theorem clkCrAfterWrite_of_kept {old v : Word} (hxosc : old.getLsbD 8 = true → v.getLsbD 8 = true)
    (hpll : old.getLsbD 16 = true → v.getLsbD 16 = true) :
    clkCrAfterWrite old v = rwMerge (Slot.rwMask .clkCr) old v := by
  apply BitVec.eq_of_getLsbD_eq
  intro j _
  rw [getLsbD_clkCrAfterWrite, if_neg, if_neg]
  · rintro ⟨-, hold, hv⟩
    cases (hxosc hold).symm.trans hv
  · rintro ⟨-, hold, hv⟩
    cases (hpll hold).symm.trans hv

/-- Setting an RW bit of CLK_CR by a read and a write of the register sets that bit of the word. -/
theorem clkCrAfterWrite_setBit (s : State) {i : Nat} (hi : i < 32) (hrw : (Slot.rwMask .clkCr).getLsbD i = true) :
    clkCrAfterWrite s.clkCr (withBit (s.regValue .clkCr) i true) = withBit s.clkCr i true := by
  have hkept : ∀ j, (Slot.rwMask .clkCr).getLsbD j = true → s.clkCr.getLsbD j = true →
      (withBit (s.regValue .clkCr) i true).getLsbD j = true := fun j hj h => by
    rw [getLsbD_withBit _ _ _ _ hi, getLsbD_regValue_rw s hj]
    simp [State.stored, h]
  rw [clkCrAfterWrite_of_kept (hkept 8 (by decide)) (hkept 16 (by decide)), rwMerge_withBit _ _ _ hi hrw]
  exact congrArg (withBit · i true) (rwMerge_regValue s .clkCr)

/-- A value that differs from what the slot reads in no fixed bit has 0 in the reserved bits. -/
theorem and_reservedMask_of_sameFixed {s : State} {r : Slot} {v : Word} (h : SameFixed r (s.regValue r) v) :
    v &&& r.reservedMask = 0 :=
  (and_eq_and_of_bits fun j hj => h j (by simp [Slot.fixedMask, hj])).trans (regValue_and_reservedMask s r)

/-! ### Status bits as CSEQ reads them (R39, R41) -/

/-- An RO bit that is not hardwired reads as it is stored. -/
theorem getLsbD_regValue_ro (s : State) {r : Slot} {j : Nat} (hro : r.roMask.getLsbD j = true)
    (hwired : r.hardwired.getLsbD j = false) : (s.regValue r).getLsbD j = (s.stored r).getLsbD j := by
  rw [getLsbD_regValue, hro, hwired, Bool.or_true, Bool.and_true, Bool.or_false]

theorem getLsbD_regValue_xoscRdy (s : State) : (s.regValue .clkCr).getLsbD 9 = s.xoscRdy :=
  getLsbD_regValue_ro s (by decide) (by decide)

theorem getLsbD_regValue_pllRdy (s : State) : (s.regValue .clkCr).getLsbD 17 = s.pllRdy :=
  getLsbD_regValue_ro s (by decide) (by decide)

theorem fieldOf_regValue_sws (s : State) : fieldOf (s.regValue .clkCfgr) 2 2 = s.sws := by
  have hro : ∀ j < 2, (Slot.roMask .clkCfgr).getLsbD (2 + j) = true := by decide
  have hwired : ∀ j < 2, (Slot.hardwired .clkCfgr).getLsbD (2 + j) = false := by decide
  apply BitVec.eq_of_getLsbD_eq
  intro j hj
  rw [getLsbD_fieldOf, getLsbD_regValue_ro s (hro j hj) (hwired j hj), State.sws, getLsbD_fieldOf]
  rfl

/-! ### The three prescaler codes (R41, R53) -/

theorem sameFixed_withPrescaler (w : Word) (p : Prescaler) : SameFixed .clkCfgr w (withPrescaler w p) :=
  ((sameFixed_withField _ _ (by omega) (by decide)).trans (sameFixed_withField _ _ (by omega) (by decide))).trans
    (sameFixed_withField _ _ (by omega) (by decide))

theorem rwMerge_withPrescaler (s : State) (p : Prescaler) :
    rwMerge (Slot.rwMask .clkCfgr) s.clkCfgr (withPrescaler (s.regValue .clkCfgr) p) = withPrescaler s.clkCfgr p := by
  unfold withPrescaler
  rw [rwMerge_withField _ _ _ (by omega) (by decide), rwMerge_withField _ _ _ (by omega) (by decide),
    rwMerge_withField _ _ _ (by omega) (by decide)]
  exact congrArg (withPrescaler · p) (rwMerge_regValue s .clkCfgr)

/-- The codes written read back. -/
theorem fieldOf_withPrescaler (w : Word) (p : Prescaler) :
    fieldOf (withPrescaler w p) 4 4 = p.hpre ∧ fieldOf (withPrescaler w p) 8 3 = p.ppre1 ∧
      fieldOf (withPrescaler w p) 11 3 = p.ppre2 := by
  unfold withPrescaler
  refine ⟨?_, ?_, fieldOf_withField_same _ _ _ (by omega)⟩
  · rw [fieldOf_withField_apart _ _ _ _ _ (by omega) (by omega),
      fieldOf_withField_apart _ _ _ _ _ (by omega) (by omega), fieldOf_withField_same _ _ _ (by omega)]
  · rw [fieldOf_withField_apart _ _ _ _ _ (by omega) (by omega), fieldOf_withField_same _ _ _ (by omega)]

/-- A prescaler write leaves SW and SWS. -/
theorem fieldOf_withPrescaler_apart (w : Word) (p : Prescaler) {lo len : Nat} (h : lo + len ≤ 4) :
    fieldOf (withPrescaler w p) lo len = fieldOf w lo len := by
  unfold withPrescaler
  rw [fieldOf_withField_apart _ _ _ _ _ (by omega) (by omega),
    fieldOf_withField_apart _ _ _ _ _ (by omega) (by omega), fieldOf_withField_apart _ _ _ _ _ (by omega) (by omega)]

/-- CLK_CFGR holds a reserved code exactly if SW does or its prescaler is not legal (R53). -/
theorem reservedCode_eq {w : Word} {p : Prescaler} (hhpre : fieldOf w 4 4 = p.hpre) (hppre1 : fieldOf w 8 3 = p.ppre1)
    (hppre2 : fieldOf w 11 3 = p.ppre2) :
    Slot.reservedCode .clkCfgr w = (decide (fieldOf w 0 2 = 3) || !p.legal) := by
  simp only [Slot.reservedCode, hhpre, hppre1, hppre2, Prescaler.legal, Bool.not_and, BEq.rfl, Bool.true_and,
    ← decide_not, not_le, Bool.or_assoc]

theorem reservedCode_withPrescaler (w : Word) (p : Prescaler) :
    Slot.reservedCode .clkCfgr (withPrescaler w p) = (decide (fieldOf w 0 2 = 3) || !p.legal) := by
  obtain ⟨hhpre, hppre1, hppre2⟩ := fieldOf_withPrescaler w p
  rw [reservedCode_eq hhpre hppre1 hppre2, fieldOf_withPrescaler_apart w p (by omega)]

/-- What is written to CLK_CFGR holds a reserved code exactly if the word it leaves does. -/
theorem reservedCode_of_rwMerge {old v w : Word} (h : rwMerge (Slot.rwMask .clkCfgr) old v = w) :
    Slot.reservedCode .clkCfgr v = Slot.reservedCode .clkCfgr w := by
  rw [← h, reservedCode_rwMerge]

/-! ### The PLL's configuration (R40, R185) -/

/-- A field write into a field that is 0 is an or. -/
theorem withField_eq_or {w : Word} {lo len : Nat} (x : BitVec len) (h : lo + len ≤ 32) (hw : fieldOf w lo len = 0) :
    withField w lo x = w ||| x.setWidth 32 <<< lo := by
  apply BitVec.eq_of_getLsbD_eq
  intro j hj
  rw [getLsbD_withField _ _ _ _ h, BitVec.getLsbD_or, BitVec.getLsbD_shiftLeft, BitVec.getLsbD_setWidth]
  split
  · next hin =>
    have hsub : j - lo < 32 := by omega
    have hlo : ¬ j < lo := by omega
    rw [getLsbD_eq_false_of_fieldOf hw hin.1 hin.2]
    simp [hj, hlo, hsub]
  · next hout =>
    by_cases hlo : j < lo
    · simp [hlo]
    · have hx : x.getLsbD (j - lo) = false := BitVec.getLsbD_of_ge _ _ (by omega)
      simp [hx]

/-- The configuration as three fields over PLLSRC = 1. -/
theorem pllCfgValue_eq (v : Variant) :
    pllCfgValue v = withField (withField (withField (1#32 <<< 24) 16 v.pllP) 6 v.pllN) 0 v.pllM := by
  have hP : fieldOf (1#32 <<< 24) 16 4 = 0 := by decide
  have hN : fieldOf (withField (1#32 <<< 24) 16 v.pllP) 6 9 = 0 := by
    rw [fieldOf_withField_apart _ _ _ _ _ (by omega) (by omega)]
    decide
  have hM : fieldOf (withField (withField (1#32 <<< 24) 16 v.pllP) 6 v.pllN) 0 6 = 0 := by
    rw [fieldOf_withField_apart _ _ _ _ _ (by omega) (by omega),
      fieldOf_withField_apart _ _ _ _ _ (by omega) (by omega)]
    decide
  rw [withField_eq_or _ (by omega) hM, withField_eq_or _ (by omega) hN, withField_eq_or _ (by omega) hP,
    BitVec.shiftLeft_zero]
  rfl

theorem fieldOf_pllCfgValue (v : Variant) : fieldOf (pllCfgValue v) 0 6 = v.pllM ∧
    fieldOf (pllCfgValue v) 6 9 = v.pllN ∧ fieldOf (pllCfgValue v) 16 4 = v.pllP := by
  rw [pllCfgValue_eq]
  refine ⟨fieldOf_withField_same _ _ _ (by omega), ?_, ?_⟩
  · rw [fieldOf_withField_apart _ _ _ _ _ (by omega) (by omega), fieldOf_withField_same _ _ _ (by omega)]
  · rw [fieldOf_withField_apart _ _ _ _ _ (by omega) (by omega),
      fieldOf_withField_apart _ _ _ _ _ (by omega) (by omega), fieldOf_withField_same _ _ _ (by omega)]

/-- The configuration takes the external oscillator (R185). -/
theorem getLsbD_pllCfgValue_pllSrc (v : Variant) : (pllCfgValue v).getLsbD 24 = true := by
  rw [pllCfgValue_eq, getLsbD_withField _ _ _ _ (by omega), if_neg (by omega), getLsbD_withField _ _ _ _ (by omega),
    if_neg (by omega), getLsbD_withField _ _ _ _ (by omega), if_neg (by omega)]
  decide

theorem pllCfgValue_and_reservedMask (v : Variant) : pllCfgValue v &&& Slot.reservedMask .clkPllcfg = 0 := by
  have hfix : SameFixed .clkPllcfg (1#32 <<< 24) (pllCfgValue v) := by
    rw [pllCfgValue_eq]
    exact ((sameFixed_withField _ _ (by omega) (by decide)).trans
      (sameFixed_withField _ _ (by omega) (by decide))).trans (sameFixed_withField _ _ (by omega) (by decide))
  exact (WordClear.of_sameFixed hfix ⟨by decide, by decide⟩).1

theorem rwMerge_pllCfgValue (old : Word) (v : Variant) :
    rwMerge (Slot.rwMask .clkPllcfg) old (pllCfgValue v) &&& Slot.rwMask .clkPllcfg = pllCfgValue v :=
  rwMerge_clkPllcfg _ _ (pllCfgValue_and_reservedMask v)

/-- The configuration has only RW bits. -/
theorem pllCfgValue_and_rwMask (v : Variant) : pllCfgValue v &&& Slot.rwMask .clkPllcfg = pllCfgValue v := by
  simpa [rwMerge_self] using rwMerge_pllCfgValue (pllCfgValue v) v

/-! ### CSEQ's writes (R167, R198) -/

section

variable {s : State} {r : Slot} {v : Word} {q : SeqState}

theorem seqWrite_eq : seqWrite s r v q =
    (writeFault s r v).elim (.ok { s.regWrite r v with seqState := q }) fun c => .error (.raise c) := by
  unfold seqWrite devWrite
  cases writeFault s r v <;> rfl

theorem seqWrite_of_fault {c : FaultCode} (h : writeFault s r v = some c) : seqWrite s r v q = .error (.raise c) := by
  rw [seqWrite_eq, h]
  rfl

/-- A CSEQ write that passes every check of R167 that concerns its slot. -/
theorem seqWrite_of_writable (hclock : r.isPeripheral = true → s.clockState = .switched) (huart : r.isUart = false)
    (hres : v &&& r.reservedMask = 0) (hcode : r.reservedCode v = false)
    (hpll : r = .clkPllcfg → s.pllOn = true → v &&& r.rwMask = s.clkPllcfg &&& r.rwMask)
    (hlock : r = .clkCr → v.getLsbD 16 = true → s.pllOn = true ∨ s.pllM ≠ 0 ∧ s.pllN ≠ 0 ∧ s.pllP ≠ 0) :
    seqWrite s r v q = .ok { s.regWrite r v with seqState := q } := by
  have hnone : writeFault s r v = none := by
    unfold writeFault
    split_ifs with hearly hoff hbits hbad hrun hzero hdata
    · simp_all
    · simp_all
    · exact absurd hres hbits
    · simp_all
    · obtain ⟨hr, hon, hne⟩ := hrun
      exact absurd (hpll hr hon) hne
    · obtain ⟨hr, hbit, hoff, hzero⟩ := hzero
      obtain hon | ⟨hM, hN, hP⟩ := hlock hr hbit
      · simp [hon] at hoff
      · simp_all
    · obtain ⟨rfl, -⟩ := hdata
      cases huart
    · rfl
  rw [seqWrite_eq, hnone]
  rfl

theorem fixedMask_of_rwMask {j : Nat} (h : r.rwMask.getLsbD j = true) : r.fixedMask.getLsbD j = false := by
  simpa [h] using congrArg (·.getLsbD j) (fixedMask_and_rwMask r)

/-- A CSEQ write of a slot other than the three clock registers. -/
theorem seqWrite_of_plain (hclock : r.isPeripheral = true → s.clockState = .switched) (huart : r.isUart = false)
    (hcfgr : r ≠ .clkCfgr) (hpllcfg : r ≠ .clkPllcfg) (hcr : r ≠ .clkCr) (hres : v &&& r.reservedMask = 0) :
    seqWrite s r v q = .ok { s.setStored r (rwMerge r.rwMask (s.stored r) v) with seqState := q } := by
  have hdata : r ≠ .uartData := by rintro rfl; cases huart
  rw [seqWrite_of_writable hclock huart hres (by simp [Slot.reservedCode, hcfgr]) (fun h => absurd h hpllcfg)
    fun h => absurd h hcr, regWrite_eq_setStored hdata, State.writtenWord, if_neg hcr]

/-- CSEQ sets or clears an RW bit of such a slot. -/
theorem seqWrite_withBit {i : Nat} {b : Bool} (hclock : r.isPeripheral = true → s.clockState = .switched)
    (huart : r.isUart = false) (hcfgr : r ≠ .clkCfgr) (hpllcfg : r ≠ .clkPllcfg) (hcr : r ≠ .clkCr) (hi : i < 32)
    (hrw : r.rwMask.getLsbD i = true) : seqWrite s r (withBit (s.regValue r) i b) q =
      .ok { s.setStored r (withBit (s.stored r) i b) with seqState := q } := by
  rw [seqWrite_of_plain hclock huart hcfgr hpllcfg hcr
    (and_reservedMask_of_sameFixed (sameFixed_withBit _ _ hi (fixedMask_of_rwMask hrw))),
    rwMerge_withBit _ _ _ hi hrw, rwMerge_regValue]

/-- CSEQ sets an enable bit of CLK_CR: the PLL's only where it is set already, or the PLL can lock (R39, R186). -/
theorem seqWrite_clkCr_setBit {i : Nat} (hi : i < 32) (hrw : (Slot.rwMask .clkCr).getLsbD i = true)
    (hlock : i = 16 → s.pllOn = true ∨ s.pllM ≠ 0 ∧ s.pllN ≠ 0 ∧ s.pllP ≠ 0) :
    seqWrite s .clkCr (withBit (s.regValue .clkCr) i true) q =
      .ok { s with clkCr := withBit s.clkCr i true, seqState := q } := by
  have hon : (withBit (s.regValue .clkCr) i true).getLsbD 16 = true → s.pllOn = true ∨
      s.pllM ≠ 0 ∧ s.pllN ≠ 0 ∧ s.pllP ≠ 0 := by
    rw [getLsbD_withBit _ _ _ _ hi, getLsbD_regValue_pllOn]
    split
    · next h => exact fun _ => hlock h.symm
    · exact .inl
  rw [seqWrite_of_writable (r := .clkCr) nofun rfl
    (and_reservedMask_of_sameFixed (sameFixed_withBit _ _ hi (fixedMask_of_rwMask hrw))) rfl nofun fun _ => hon,
    State.regWrite, clkCrAfterWrite_setBit s hi hrw]

/-- CSEQ changes RW fields of CLK_CFGR to legal codes (R41, R53). -/
theorem seqWrite_clkCfgr {w : Word} (hfix : SameFixed .clkCfgr (s.regValue .clkCfgr) v)
    (hw : rwMerge (Slot.rwMask .clkCfgr) s.clkCfgr v = w) (hcode : Slot.reservedCode .clkCfgr w = false) :
    seqWrite s .clkCfgr v q = .ok { s with clkCfgr := w, seqState := q } := by
  rw [seqWrite_of_writable (r := .clkCfgr) nofun rfl (and_reservedMask_of_sameFixed hfix)
    ((reservedCode_of_rwMerge hw).trans hcode) nofun nofun, State.regWrite, hw]

end

/-! ### CSEQ's step, state by state -/

section

variable {s : State}

/-- S1_FLASH (R183). -/
theorem cseqStep_s1Flash (hq : s.seqState = .s1Flash) : cseqStep s =
    .ok { s with flashAcr := withField s.flashAcr 0 s.launch.variant.latency, seqState := .s2XoscOn } := by
  have hres : withField (s.regValue .flashAcr) 0 s.launch.variant.latency &&& Slot.reservedMask .flashAcr = 0 :=
    and_reservedMask_of_sameFixed (sameFixed_withField _ _ (by omega) (by decide))
  simp only [cseqStep, hq, seqS1Flash]
  rw [seqWrite_of_plain (r := .flashAcr) nofun rfl nofun nofun nofun hres,
    rwMerge_withField _ _ _ (by omega) (by decide), rwMerge_regValue]
  rfl

/-- S2_XOSC_ON (R184). -/
theorem cseqStep_s2XoscOn (hq : s.seqState = .s2XoscOn) :
    cseqStep s = .ok { s with clkCr := withBit s.clkCr 8 true, seqState := .s2XoscWait } := by
  simp only [cseqStep, hq, seqS2XoscOn]
  exact seqWrite_clkCr_setBit (by omega) (by decide) nofun

/-- S2_XOSC_WAIT (R184). -/
theorem cseqStep_s2XoscWait (hq : s.seqState = .s2XoscWait) :
    cseqStep s = .ok (if s.xoscRdy then { s with seqState := .s3PllCfg } else s) := by
  simp only [cseqStep, hq, seqS2XoscWait, getLsbD_regValue_xoscRdy]

/-- S3_PLL_CFG, where the PLL is off or has the variant's configuration (R185). -/
theorem cseqStep_s3PllCfg (hq : s.seqState = .s3PllCfg)
    (hcfg : s.pllOn = true → s.clkPllcfg &&& Slot.rwMask .clkPllcfg = pllCfgValue s.launch.variant) :
    cseqStep s = .ok { s with
      clkPllcfg := rwMerge (Slot.rwMask .clkPllcfg) s.clkPllcfg (pllCfgValue s.launch.variant)
      seqState := .s3PllOn } := by
  simp only [cseqStep, hq, seqS3PllCfg]
  rw [seqWrite_of_writable (r := .clkPllcfg) nofun rfl (pllCfgValue_and_reservedMask _) rfl
    (fun _ hon => (pllCfgValue_and_rwMask _).trans (hcfg hon).symm) nofun, State.regWrite]

/-- S3_PLL_CFG, where the PLL runs with another configuration (R185). -/
theorem cseqStep_s3PllCfg_of_ne (hq : s.seqState = .s3PllCfg) (hon : s.pllOn = true)
    (hcfg : s.clkPllcfg &&& Slot.rwMask .clkPllcfg ≠ pllCfgValue s.launch.variant) :
    cseqStep s = .error (.raise .pllReconfigWhileOn) := by
  simp only [cseqStep, hq, seqS3PllCfg]
  refine seqWrite_of_fault ?_
  rw [writeFault, if_neg (by simp [Slot.isPeripheral, Slot.isUart]), if_neg (by simp [Slot.isUart]),
    if_neg (by simp [pllCfgValue_and_reservedMask]), if_neg (by simp [Slot.reservedCode]),
    if_pos ⟨rfl, hon, by rw [pllCfgValue_and_rwMask]; exact hcfg.symm⟩]

/-- S3_PLL_ON, where the PLL is on already or can lock (R186). -/
theorem cseqStep_s3PllOn (hq : s.seqState = .s3PllOn)
    (hlock : s.pllOn = true ∨ s.pllM ≠ 0 ∧ s.pllN ≠ 0 ∧ s.pllP ≠ 0) :
    cseqStep s = .ok { s with clkCr := withBit s.clkCr 16 true, seqState := .s3PllWait } := by
  simp only [cseqStep, hq, seqS3PllOn]
  exact seqWrite_clkCr_setBit (by omega) (by decide) fun _ => hlock

/-- S3_PLL_ON, where the PLL would be turned on with a zero divider or multiplier (R186). -/
theorem cseqStep_s3PllOn_of_zero (hq : s.seqState = .s3PllOn) (hoff : s.pllOn = false)
    (hzero : s.pllM = 0 ∨ s.pllN = 0 ∨ s.pllP = 0) : cseqStep s = .error (.raise .pllConfigIllegal) := by
  have hres : withBit (s.regValue .clkCr) 16 true &&& Slot.reservedMask .clkCr = 0 :=
    and_reservedMask_of_sameFixed (sameFixed_withBit _ _ (by omega) (by decide))
  have hon : (withBit (s.regValue .clkCr) 16 true).getLsbD 16 = true := by
    rw [getLsbD_withBit _ _ _ _ (by omega), if_pos rfl]
  simp only [cseqStep, hq, seqS3PllOn]
  refine seqWrite_of_fault ?_
  rw [writeFault, if_neg (by simp [Slot.isPeripheral, Slot.isUart]), if_neg (by simp [Slot.isUart]),
    if_neg (by simp [hres]), if_neg (by simp [Slot.reservedCode]), if_neg (by simp),
    if_pos ⟨rfl, hon, hoff, hzero⟩]

/-- S3_PLL_WAIT (R187). -/
theorem cseqStep_s3PllWait (hq : s.seqState = .s3PllWait) : cseqStep s = .ok (if s.pllRdy then
    { s with seqState := if s.launch.variant.prescInter.isSome then .s4PrescInter else .s4PrescFinal } else s) := by
  simp only [cseqStep, hq, seqS3PllWait, getLsbD_regValue_pllRdy]

/-- The three prescaler steps of CSEQ, with the prescaler each writes and the state it goes to (R188, R189, R193). -/
def PrescalerStep (s : State) (p : Prescaler) (q : SeqState) : Prop :=
  (s.seqState = .s4PrescInter ∧ s.launch.variant.prescInter = some p ∧
      q = if s.launch.variant.finalAfterSwitch then .s5Switch else .s4PrescFinal) ∨
    (s.seqState = .s4PrescFinal ∧ s.launch.variant.prescFinal = p ∧ q = .s5Switch) ∨
    (s.seqState = .s4PrescLate ∧ s.launch.variant.prescFinal = p ∧ q = .s6TickArm)

theorem PrescalerStep.cseqStep_eq {p : Prescaler} {q : SeqState} (h : PrescalerStep s p q) :
    cseqStep s = seqWrite s .clkCfgr (withPrescaler (s.regValue .clkCfgr) p) q := by
  obtain ⟨hq, hp, rfl⟩ | ⟨hq, rfl, rfl⟩ | ⟨hq, rfl, rfl⟩ := h
  · simp only [cseqStep, hq, seqS4PrescInter, hp]
  · simp only [cseqStep, hq, seqS4PrescFinal]
  · simp only [cseqStep, hq, seqS4PrescLate]

/-- What a prescaler step writes holds a reserved code exactly if SW does or one of its codes is reserved (R53). -/
theorem reservedCode_prescalerWrite (s : State) (p : Prescaler) :
    Slot.reservedCode .clkCfgr (withPrescaler (s.regValue .clkCfgr) p) = (decide (s.sw = 3) || !p.legal) :=
  (reservedCode_of_rwMerge (rwMerge_withPrescaler s p)).trans (reservedCode_withPrescaler s.clkCfgr p)

theorem PrescalerStep.cseqStep_of_legal {p : Prescaler} {q : SeqState} (h : PrescalerStep s p q)
    (hp : p.legal = true) (hsw : s.sw ≠ 3) :
    cseqStep s = .ok { s with clkCfgr := withPrescaler s.clkCfgr p, seqState := q } := by
  have hcode : Slot.reservedCode .clkCfgr (withPrescaler s.clkCfgr p) = false := by
    rw [reservedCode_withPrescaler, hp, decide_eq_false (show ¬ fieldOf s.clkCfgr 0 2 = 3 from hsw)]
    rfl
  rw [h.cseqStep_eq, seqWrite_clkCfgr (sameFixed_withPrescaler _ _) (rwMerge_withPrescaler s p) hcode]

theorem PrescalerStep.cseqStep_of_illegal {p : Prescaler} {q : SeqState} (h : PrescalerStep s p q)
    (hp : p.legal = false) : cseqStep s = .error (.raise .reservedFieldValue) := by
  have hres : withPrescaler (s.regValue .clkCfgr) p &&& Slot.reservedMask .clkCfgr = 0 :=
    and_reservedMask_of_sameFixed (sameFixed_withPrescaler _ _)
  rw [h.cseqStep_eq]
  refine seqWrite_of_fault ?_
  rw [writeFault, if_neg (by simp [Slot.isPeripheral, Slot.isUart]), if_neg (by simp [Slot.isUart]),
    if_neg (by simp [hres]), if_pos (by simp [reservedCode_prescalerWrite, hp])]

/-- S5_SWITCH (R190). -/
theorem cseqStep_s5Switch (hq : s.seqState = .s5Switch) (hcode : Slot.reservedCode .clkCfgr s.clkCfgr = false) :
    cseqStep s = .ok { s with clkCfgr := withField s.clkCfgr 0 2#2, seqState := .s5SwitchWait } := by
  have hw : rwMerge (Slot.rwMask .clkCfgr) s.clkCfgr (withField (s.regValue .clkCfgr) 0 2#2) =
      withField s.clkCfgr 0 2#2 :=
    (rwMerge_withField _ _ _ (by omega) (by decide)).trans
      (congrArg (withField · 0 2#2) (rwMerge_regValue s .clkCfgr))
  simp only [cseqStep, hq, seqS5Switch]
  exact seqWrite_clkCfgr (sameFixed_withField _ _ (by omega) (by decide)) hw
    (reservedCode_withField_sw (by decide) hcode)

/-- S5_SWITCH_WAIT (R191). -/
theorem cseqStep_s5SwitchWait (hq : s.seqState = .s5SwitchWait) : cseqStep s = .ok (if s.sws = 2 then
    { s with seqState := if s.launch.variant.finalAfterSwitch then .s4PrescLate else .s6TickArm } else s) := by
  simp only [cseqStep, hq, seqS5SwitchWait, fieldOf_regValue_sws]

/-- S6_TICK_ARM (R194). -/
theorem cseqStep_s6TickArm (hq : s.seqState = .s6TickArm) :
    cseqStep s = .ok { s with tickReload := reloadValue s.launch.variant, seqState := .s6TickEn } := by
  simp only [cseqStep, hq, seqS6TickArm]
  rw [seqWrite_of_plain (r := .tickReload) nofun rfl nofun nofun nofun BitVec.and_zero, rwMerge_tickReload]
  rfl

/-- S6_TICK_EN (R194). -/
theorem cseqStep_s6TickEn (hq : s.seqState = .s6TickEn) :
    cseqStep s = .ok { s with tickCtrl := rwMerge (Slot.rwMask .tickCtrl) s.tickCtrl 3, seqState := .idle } := by
  simp only [cseqStep, hq, seqS6TickEn]
  exact seqWrite_of_plain nofun rfl nofun nofun nofun (by decide)

/-- P1_PWR_EN, once the clock is switched (R201). -/
theorem cseqStep_p1PwrEn (hq : s.seqState = .p1PwrEn) (hclock : s.clockState = .switched) :
    cseqStep s = .ok { s with penr := withBit s.penr 1 true, seqState := .p2Mode } := by
  simp only [cseqStep, hq, seqP1PwrEn]
  exact seqWrite_withBit (fun _ => hclock) rfl nofun nofun nofun (by omega) (by decide)

/-- P1_PWR_EN before that (R201). -/
theorem cseqStep_p1PwrEn_of_ne (hq : s.seqState = .p1PwrEn) (hclock : s.clockState ≠ .switched) :
    cseqStep s = .error (.raise .peripheralBeforeSwitched) := by
  simp only [cseqStep, hq, seqP1PwrEn]
  exact seqWrite_of_fault (if_pos (by simp [Slot.isPeripheral, hclock]))

/-- P2_MODE (R202). -/
theorem cseqStep_p2Mode (hq : s.seqState = .p2Mode) : cseqStep s =
    .ok { s with pwrCr := withBit s.pwrCr 0 (s.current.word.getLsbD 0), seqState := .p3Deep } := by
  simp only [cseqStep, hq, seqP2Mode]
  exact seqWrite_withBit nofun rfl nofun nofun nofun (by omega) (by decide)

/-- P3_DEEP (R203). -/
theorem cseqStep_p3Deep (hq : s.seqState = .p3Deep) :
    cseqStep s = .ok { s with scr := withBit s.scr 0 true, seqState := .p4Wfe } := by
  simp only [cseqStep, hq, seqP3Deep]
  exact seqWrite_withBit nofun rfl nofun nofun nofun (by omega) (by decide)

end

end Sys2Proof.Machine
end

section
/-! SUPPORT. The statements about the sequencer's steps (spec/42_clock_sequencer.md R182 to R204), from CSEQ's step for
each value of SEQ_STATE, and about the clock and UART devices and the wake from standby (R206, R210 to R212, R270,
R271). -/

namespace Sys2Proof.Machine

/-! ### BRINGUP and PDOWN (R182, R200) -/

section

variable {s : State} {mode : PowerMode}

theorem exec_bringup_ms1 (hms : s.current.ms = .ms1) :
    exec .bringup s = .next { s.goto .ms2 with seqState := .s1Flash } := by
  simp only [exec, execBringup, hms]

theorem exec_pdown_ms1 (hms : s.current.ms = .ms1) :
    exec (.pdown mode) s = .next { s.goto .ms2 with seqState := .p1PwrEn } := by
  simp only [exec, execPdown, hms]

theorem exec_bringup_ms2 (hms : s.current.ms = .ms2) :
    exec .bringup s = .next (if s.seqState = .idle then s.done else s) := by
  simp only [exec, execBringup, hms]

theorem exec_pdown_ms2 (hms : s.current.ms = .ms2) :
    exec (.pdown mode) s = .next (if s.seqState = .idle ∧ s.pstate = .run then s.done else s) := by
  simp only [exec, execPdown, hms]

end

/-- Settles O41: the two micro-steps of each command, and the condition ms2 waits for. -/
theorem bringupAndPdownMicroSteps : Obligations.BringupAndPdownMicroSteps := by
  unfold Obligations.BringupAndPdownMicroSteps
  intro s mode
  refine ⟨fun hms => ⟨exec_bringup_ms1 hms, exec_pdown_ms1 hms⟩, fun hms hq => ?_, fun hms hq hp => ?_,
    fun hms hq => ⟨?_, ?_⟩, fun hms hp => ?_⟩
  · rw [exec_bringup_ms2 hms, if_pos hq]
  · rw [exec_pdown_ms2 hms, if_pos ⟨hq, hp⟩]
  · rw [exec_bringup_ms2 hms, if_neg hq]
  · rw [exec_pdown_ms2 hms, if_neg fun h => hq h.1]
  · rw [exec_pdown_ms2 hms, if_neg fun h => hp h.2]

/-! ### The steps of CSEQ -/

/-- The word that a bit write leaves, bit by bit. -/
theorem withBit_bits (w : Word) {i : Nat} (b : Bool) (hi : i < 32) :
    (withBit w i b).getLsbD i = b ∧ ∀ j, j ≠ i → (withBit w i b).getLsbD j = w.getLsbD j :=
  ⟨by rw [getLsbD_withBit _ _ _ _ hi, if_pos rfl], fun j hj => by rw [getLsbD_withBit _ _ _ _ hi, if_neg hj]⟩

/-- Settles O42: the field and the bit that the two writes set, and both outcomes of the wait. -/
theorem sequencerFlashAndOscillator : Obligations.SequencerFlashAndOscillator := by
  unfold Obligations.SequencerFlashAndOscillator
  intro s
  refine ⟨fun hq => ⟨_, cseqStep_s1Flash hq, fieldOf_withField_same _ _ _ (by omega)⟩,
    fun hq => ⟨_, cseqStep_s2XoscOn hq, withBit_bits _ _ (by omega)⟩, fun hq hrdy => ?_, fun hq hrdy => ?_⟩
  · rw [cseqStep_s2XoscWait hq, if_pos hrdy]
  · rw [cseqStep_s2XoscWait hq, if_neg (by simp [hrdy])]

/-- The dividers and the source that a CLK_PLLCFG write of the configuration leaves (R40, R185). -/
theorem fields_rwMerge_pllCfgValue (old : Word) (v : Variant) :
    let w := rwMerge (Slot.rwMask .clkPllcfg) old (pllCfgValue v)
    fieldOf w 0 6 = v.pllM ∧ fieldOf w 6 9 = v.pllN ∧ fieldOf w 16 4 = v.pllP ∧ w.getLsbD 24 = true := by
  obtain ⟨hM, hN, hP⟩ := fieldOf_pllCfgValue v
  refine ⟨?_, ?_, ?_, ?_⟩
  · rw [fieldOf_rwMerge_taken _ _ (by decide), hM]
  · rw [fieldOf_rwMerge_taken _ _ (by decide), hN]
  · rw [fieldOf_rwMerge_taken _ _ (by decide), hP]
  · rw [getLsbD_rwMerge, if_pos (by decide), getLsbD_pllCfgValue_pllSrc]

/-- Settles O43: the configuration taken or refused, the PLL turned on or refused, and both outcomes of the wait. -/
theorem sequencerPll : Obligations.SequencerPll := by
  unfold Obligations.SequencerPll
  intro s
  refine ⟨fun hq hoff => ⟨_, cseqStep_s3PllCfg hq (by simp [hoff]), rwMerge_pllCfgValue _ _,
      fields_rwMerge_pllCfgValue _ _⟩, cseqStep_s3PllCfg_of_ne, fun hq _ hcfg => ?_,
    fun hq hlock => ⟨_, cseqStep_s3PllOn hq hlock, withBit_bits _ _ (by omega)⟩, cseqStep_s3PllOn_of_zero,
    fun hq hrdy => ?_, fun hq hrdy => ?_⟩
  · rw [cseqStep_s3PllCfg hq fun _ => by rw [hcfg, pllCfgValue_and_rwMask], ← hcfg, rwMerge_self]
  · rw [cseqStep_s3PllWait hq, if_neg (by simp [hrdy])]
  · rw [cseqStep_s3PllWait hq, if_pos hrdy]
    cases s.launch.variant.prescInter <;> rfl

/-- The prescaler that a state holds once its three codes are written. -/
theorem prescaler_withPrescaler (s : State) (p : Prescaler) (q : SeqState) :
    { s with clkCfgr := withPrescaler s.clkCfgr p, seqState := q }.prescaler = p := by
  obtain ⟨hhpre, hppre1, hppre2⟩ := fieldOf_withPrescaler s.clkCfgr p
  simp only [State.prescaler, hhpre, hppre1, hppre2]

/-- A write of SW or SWS leaves the prescaler. -/
theorem prescaler_withField (s : State) {lo : Nat} (x : BitVec 2) (q : SeqState) (h : lo + 2 ≤ 4) :
    { s with clkCfgr := withField s.clkCfgr lo x, seqState := q }.prescaler = s.prescaler := by
  simp only [State.prescaler]
  rw [fieldOf_withField_apart _ _ _ _ _ (by omega) (by omega), fieldOf_withField_apart _ _ _ _ _ (by omega) (by omega),
    fieldOf_withField_apart _ _ _ _ _ (by omega) (by omega)]

/-- Settles O44: a prescaler step with legal and with illegal codes, the request, and both outcomes of the wait. -/
theorem sequencerPrescalerAndSwitch : Obligations.SequencerPrescalerAndSwitch := by
  unfold Obligations.SequencerPrescalerAndSwitch
  intro s p q
  refine ⟨fun h => ?_, fun hq hlegal => ?_, fun hq hsws => ?_, fun hq hsws => ?_⟩
  · have hstep : PrescalerStep s p q := h
    exact ⟨fun hp hsw => ⟨_, hstep.cseqStep_of_legal hp hsw, rfl, prescaler_withPrescaler s p q,
      fieldOf_withPrescaler_apart _ _ (by omega), fieldOf_withPrescaler_apart _ _ (by omega)⟩,
      hstep.cseqStep_of_illegal⟩
  · exact ⟨_, cseqStep_s5Switch hq (clockCodesLegal_iff.mp hlegal).1, rfl, fieldOf_withField_same _ _ _ (by omega),
      fieldOf_withField_apart _ _ _ _ _ (by omega) (by omega), prescaler_withField s _ _ (by omega)⟩
  · rw [cseqStep_s5SwitchWait hq, if_neg hsws]
  · rw [cseqStep_s5SwitchWait hq, if_pos hsws]

/-- A slot without RO bits reads its RW bits (R35). -/
theorem regValue_of_roMask_eq_zero {s : State} {r : Slot} (hro : r.roMask = 0#32) :
    s.regValue r = s.stored r &&& r.rwMask := by
  have hwired : r.hardwired = 0#32 := by rw [← hardwired_and_roMask, hro, BitVec.and_zero]
  rw [State.regValue, hro, hwired, BitVec.or_zero, BitVec.or_zero]

theorem rwMerge_and_mask (m old v : Word) : rwMerge m old v &&& m = v &&& m :=
  and_eq_and_of_bits fun j hj => by rw [getLsbD_rwMerge, if_pos hj]

/-- TICK_CTRL reads both its enables once they are written (R45). -/
theorem regValue_tickCtrl_enabled {s : State} {old : Word} (h : s.tickCtrl = rwMerge (Slot.rwMask .tickCtrl) old 3) :
    s.regValue .tickCtrl = 3 := by
  have hread : s.regValue .tickCtrl = s.tickCtrl &&& Slot.rwMask .tickCtrl := regValue_of_roMask_eq_zero rfl
  rw [hread, h, rwMerge_and_mask]
  decide

/-- SCR's one bit is SLEEPDEEP (R44). -/
theorem withBit_and_one (w : Word) : withBit w 0 true &&& 1#32 = 1#32 := by
  refine (and_eq_and_of_bits fun j hj => ?_).trans BitVec.and_self
  obtain rfl : j = 0 := by simpa using hj
  rw [(withBit_bits w true (by omega)).1]
  rfl

/-- Settles O45: each step's write, and PENR's check against the clock. -/
theorem sequencerTickAndPowerDown : Obligations.SequencerTickAndPowerDown := by
  unfold Obligations.SequencerTickAndPowerDown
  intro s
  refine ⟨fun hq hfit => ?_, fun hq => ⟨_, cseqStep_s6TickEn hq, rfl, regValue_tickCtrl_enabled rfl⟩,
    fun hq hclock => ⟨_, cseqStep_p1PwrEn hq hclock, rfl, withBit_bits _ _ (by omega)⟩, cseqStep_p1PwrEn_of_ne,
    fun hq => ⟨_, cseqStep_p2Mode hq, rfl, (withBit_bits _ _ (by omega)).1⟩,
    fun hq => ⟨_, cseqStep_p3Deep hq, rfl, ?_⟩, fun hq => ?_⟩
  · rw [cseqStep_s6TickArm hq, reloadValue, if_pos hfit]
  · rw [regValue_of_roMask_eq_zero rfl]
    exact withBit_and_one s.scr
  · simp only [cseqStep, hq, seqP4Wfe]

/-! ### A well-formed variant raises no access fault (R9, R195) -/

theorem dividersOk_iff {v : Variant} : v.dividersOk = true ↔ v.pllM ≠ 0 ∧ v.pllN ≠ 0 ∧ v.pllP ≠ 0 := by
  simp only [Variant.dividersOk, Bool.and_eq_true, decide_eq_true_eq, and_assoc]

theorem codesOk_iff {v : Variant} :
    v.codesOk = true ↔ v.prescFinal.legal = true ∧ ∀ p, v.prescInter = some p → p.legal = true := by
  unfold Variant.codesOk
  cases v.prescInter <;> simp

/-- What R9 asks of a well-formed variant, clause by clause. -/
structure VariantSound (v : Variant) : Prop where
  dividers : v.dividersOk = true
  target : v.targetOk = true
  flash : v.flashOk = true
  codes : v.codesOk = true
  order : v.orderOk = true
  buses : v.busesOk = true

theorem VariantSound.of_wellFormed {v : Variant} (h : v.wellFormed = true) : VariantSound v := by
  simp only [Variant.wellFormed, Bool.and_eq_true] at h
  obtain ⟨⟨⟨⟨⟨⟨-, hdividers⟩, htarget⟩, hflash⟩, hcodes⟩, horder⟩, hbuses⟩ := h
  exact ⟨hdividers, htarget, hflash, hcodes, horder, hbuses⟩

/-- The dividers and the source of a PLL that has the variant's configuration (R40, R185). -/
theorem pll_of_configured {s : State} {v : Variant} (h : s.clkPllcfg &&& Slot.rwMask .clkPllcfg = pllCfgValue v) :
    s.pllM = v.pllM ∧ s.pllN = v.pllN ∧ s.pllP = v.pllP ∧ s.pllSrc = true := by
  have hw : s.clkPllcfg = rwMerge (Slot.rwMask .clkPllcfg) s.clkPllcfg (pllCfgValue v) := by
    apply BitVec.eq_of_getLsbD_eq
    intro j _
    rw [getLsbD_rwMerge, ← h]
    split
    · next hj => rw [BitVec.getLsbD_and, hj, Bool.and_true]
    · rfl
  have hfields := fields_rwMerge_pllCfgValue s.clkPllcfg v
  rwa [← hw] at hfields

theorem sw_ne_of_reservedCode {s : State} (h : Slot.reservedCode .clkCfgr s.clkCfgr = false) : s.sw ≠ 3 := by
  intro h3
  have h3' : fieldOf s.clkCfgr 0 2 = 3 := h3
  simp [Slot.reservedCode, h3'] at h

/-- Settles O46: the checks of R167 pass at every step of the sequence. -/
theorem wellFormedBringupNeverFaults : Obligations.WellFormedBringupNeverFaults := by
  unfold Obligations.WellFormedBringupNeverFaults
  intro s hwf hlegal hup hpll
  have hv := VariantSound.of_wellFormed hwf
  obtain ⟨hfinal, hinter⟩ := codesOk_iff.mp hv.codes
  obtain ⟨hcode, -⟩ := clockCodesLegal_iff.mp hlegal
  have hsw := sw_ne_of_reservedCode hcode
  have hcfg := pllConfigHeld_iff.mp hpll
  cases hq : s.seqState
  case idle => exact ⟨s, by simp only [cseqStep, hq]⟩
  case s1Flash => exact ⟨_, cseqStep_s1Flash hq⟩
  case s2XoscOn => exact ⟨_, cseqStep_s2XoscOn hq⟩
  case s2XoscWait => exact ⟨_, cseqStep_s2XoscWait hq⟩
  case s3PllCfg => exact ⟨_, cseqStep_s3PllCfg hq fun hon => hcfg (.inl hon)⟩
  case s3PllOn =>
    obtain ⟨hM, hN, hP, -⟩ := pll_of_configured (hcfg (.inr hq))
    exact ⟨_, cseqStep_s3PllOn hq (.inr (by rw [hM, hN, hP]; exact dividersOk_iff.mp hv.dividers))⟩
  case s3PllWait => exact ⟨_, cseqStep_s3PllWait hq⟩
  case s4PrescInter =>
    cases hp : s.launch.variant.prescInter with
    | none => exact ⟨_, by simp only [cseqStep, hq, seqS4PrescInter, hp]; rfl⟩
    | some p => exact ⟨_, PrescalerStep.cseqStep_of_legal (.inl ⟨hq, hp, rfl⟩) (hinter p hp) hsw⟩
  case s4PrescFinal => exact ⟨_, PrescalerStep.cseqStep_of_legal (.inr (.inl ⟨hq, rfl, rfl⟩)) hfinal hsw⟩
  case s5Switch => exact ⟨_, cseqStep_s5Switch hq hcode⟩
  case s5SwitchWait => exact ⟨_, cseqStep_s5SwitchWait hq⟩
  case s4PrescLate => exact ⟨_, PrescalerStep.cseqStep_of_legal (.inr (.inr ⟨hq, rfl, rfl⟩)) hfinal hsw⟩
  case s6TickArm => exact ⟨_, cseqStep_s6TickArm hq⟩
  case s6TickEn => exact ⟨_, cseqStep_s6TickEn hq⟩
  all_goals simp [hq] at hup

/-! ### Devices (R210 to R212, R270, R271) -/

section

variable {s : State}

theorem enabled_osc_iff (hrun : s.running = true) :
    enabled .osc s = true ↔ s.xoscOn = true ∧ s.xoscRdy = false ∧ s.launch.xtalPresent = true := by
  simp [enabled, hrun, oscEnabled, and_assoc]

theorem enabled_pll_iff (hrun : s.running = true) : enabled .pll s = true ↔
    s.pllOn = true ∧ s.pllRdy = false ∧ s.launch.pllLocks = true ∧ (s.pllSrc = false ∨ s.xoscRdy = true) := by
  simp [enabled, hrun, pllEnabled, and_assoc]

theorem sourceReady_iff {c : BitVec 2} (hc : c ≠ 3) :
    s.sourceReady c = true ↔ (c = 1 → s.xoscRdy = true) ∧ (c = 2 → s.pllRdy = true) := by
  have hcases : ∀ d : BitVec 2, d ≠ 3 → d = 0 ∨ d = 1 ∨ d = 2 := by decide
  obtain rfl | rfl | rfl := hcases c hc <;> simp [State.sourceReady]

theorem enabled_clksw_iff (hrun : s.running = true) (hsw : s.sw ≠ 3) : enabled .clksw s = true ↔
    s.sws ≠ s.sw ∧ (s.sw = 1 → s.xoscRdy = true) ∧ (s.sw = 2 → s.pllRdy = true) := by
  rw [← sourceReady_iff hsw]
  simp [enabled, hrun, clkswEnabled]

theorem uartRuns_iff : s.uartRuns = true ↔ s.uartEn = true ∧ s.ue = true ∧ s.brd ≠ 0 := by
  simp [State.uartRuns, and_assoc]

theorem enabled_utx_iff (hrun : s.running = true) :
    enabled .utx s = true ↔ s.uartEn = true ∧ s.ue = true ∧ s.brd ≠ 0 ∧ s.txe = false := by
  simp only [enabled, hrun, utxEnabled, Bool.true_and, Bool.and_eq_true, uartRuns_iff, Bool.not_eq_true', and_assoc]

theorem enabled_urx_iff (hrun : s.running = true) :
    enabled .urx s = true ↔ s.uartEn = true ∧ s.ue = true ∧ s.brd ≠ 0 ∧ s.lineIn ≠ [] := by
  simp only [enabled, hrun, urxEnabled, Bool.true_and, Bool.and_eq_true, uartRuns_iff, Bool.not_eq_true',
    List.isEmpty_eq_false_iff, and_assoc]

end

/-- Settles O48: each device's condition and step. -/
theorem devicesStepWhenEnabled : Obligations.DevicesStepWhenEnabled := by
  unfold Obligations.DevicesStepWhenEnabled
  intro s b rest hp hf
  have hrun := running_iff.mpr ⟨hp, hf⟩
  refine ⟨enabled_osc_iff hrun, rfl, enabled_pll_iff hrun, rfl, enabled_clksw_iff hrun,
    ⟨_, rfl, rfl, fieldOf_withField_same _ _ _ (by omega), fieldOf_withField_apart _ _ _ _ _ (by omega) (by omega),
      prescaler_withField s _ s.seqState (by omega)⟩,
    enabled_utx_iff hrun, rfl, enabled_urx_iff hrun, fun hline hrxne => ?_, fun hline hrxne => ?_⟩
  · simp only [perform, urxStep, hline, hrxne]
    rfl
  · simp only [perform, urxStep, hline, hrxne]
    rfl

/-! ### WAKE from standby (R206) -/

/-- Settles O50: the draws are the next free values. -/
theorem wakeFromStandbyResets : Obligations.WakeFromStandbyResets := by
  unfold Obligations.WakeFromStandbyResets
  intro s hp
  refine ⟨{ res := Config.freeWord s.freeCount, scratch := Config.freeWord (s.freeCount + 1),
            rxData := Config.freeByte s.freeCount, txData := Config.freeByte (s.freeCount + 1) }, s.freeCount + 2, ?_⟩
  simp only [perform, wakeStep, hp]
  rfl

end Sys2Proof.Machine
end

section
/-! SUPPORT. A whole bring-up (R192, R195): the clock registers as one view, what each move of the step order does to
the view, and the run along the moves as the composition of these steps. -/

namespace Sys2Proof.Machine

/-! ### The view of the clock registers -/

/-- The registers that a bring-up writes, as far as the block reads them: CLK_CR, CLK_PLLCFG and TICK_CTRL as words,
FLASH_ACR and CLK_CFGR by their fields. -/
structure ClockView where
  latency : BitVec 4
  cr : Word
  pllcfg : Word
  sw : BitVec 2
  sws : BitVec 2
  prescaler : Prescaler
  reload : Word
  tickCtrl : Word

/-- The clock registers as they read. -/
def State.clockView (s : State) : ClockView where
  latency := s.latency
  cr := s.regValue .clkCr
  pllcfg := s.regValue .clkPllcfg
  sw := s.sw
  sws := s.sws
  prescaler := s.prescaler
  reload := s.tickReload
  tickCtrl := s.regValue .tickCtrl

/-- The state without what a bring-up changes. -/
def State.eraseClock (s : State) : State :=
  { s with seqState := .idle, flashAcr := 0, clkCr := 0, clkPllcfg := 0, clkCfgr := 0, tickReload := 0, tickCtrl := 0 }

/-- A state of the bring-up begun in `s`: CSEQ is at `q`, the clock registers read as `c`, and all else is as in `s`. -/
structure BringupAt (s : State) (q : SeqState) (c : ClockView) (t : State) : Prop where
  frame : t.eraseClock = s.eraseClock
  seqState : t.seqState = q
  view : t.clockView = c

/-- A state of the bring-up is `s` but for what a bring-up changes. -/
theorem BringupAt.eq {s t : State} {q : SeqState} {c : ClockView} (h : BringupAt s q c t) :
    t = { s with
      seqState := q, flashAcr := t.flashAcr, clkCr := t.clkCr, clkPllcfg := t.clkPllcfg, clkCfgr := t.clkCfgr,
      tickReload := t.tickReload, tickCtrl := t.tickCtrl } :=
  calc t = { t.eraseClock with
          seqState := t.seqState, flashAcr := t.flashAcr, clkCr := t.clkCr, clkPllcfg := t.clkPllcfg,
          clkCfgr := t.clkCfgr, tickReload := t.tickReload, tickCtrl := t.tickCtrl } := rfl
    _ = _ := by rw [h.frame, h.seqState]; rfl

section

variable {s t : State} {q : SeqState} {c : ClockView} (h : BringupAt s q c t)

include h

theorem BringupAt.launch : t.launch = s.launch := by rw [h.eq]
theorem BringupAt.fault : t.fault = s.fault := by rw [h.eq]
theorem BringupAt.pstate : t.pstate = s.pstate := by rw [h.eq]
theorem BringupAt.busy : t.busy = s.busy := by rw [h.eq]
theorem BringupAt.current : t.current = s.current := by rw [h.eq]

theorem BringupAt.xoscOn : t.xoscOn = c.cr.getLsbD 8 := by
  rw [← h.view]
  exact (getLsbD_regValue_rw (r := .clkCr) t (by decide)).symm

theorem BringupAt.pllOn : t.pllOn = c.cr.getLsbD 16 := by
  rw [← h.view]
  exact (getLsbD_regValue_pllOn t).symm

theorem BringupAt.xoscRdy : t.xoscRdy = c.cr.getLsbD 9 := by
  rw [← h.view]
  exact (getLsbD_regValue_xoscRdy t).symm

theorem BringupAt.pllRdy : t.pllRdy = c.cr.getLsbD 17 := by
  rw [← h.view]
  exact (getLsbD_regValue_pllRdy t).symm

theorem BringupAt.sw : t.sw = c.sw := congrArg ClockView.sw h.view

theorem BringupAt.sws : t.sws = c.sws := congrArg ClockView.sws h.view

theorem BringupAt.prescaler : t.prescaler = c.prescaler := congrArg ClockView.prescaler h.view

theorem BringupAt.configured {v : Variant} (hc : c.pllcfg = pllCfgValue v) :
    t.clkPllcfg &&& Slot.rwMask .clkPllcfg = pllCfgValue v := by
  have hread : t.regValue .clkPllcfg = pllCfgValue v := (congrArg ClockView.pllcfg h.view).trans hc
  rwa [regValue_of_roMask_eq_zero rfl] at hread

end

/-! ### The frequency limits along a bring-up (R9, R55, R312) -/

/-- Along a bring-up LATENCY is the variant's, and the active source is the internal oscillator or the variant's PLL,
within the bus limits under the prescaler. -/
def Steady (v : Variant) (c : ClockView) : Prop :=
  c.latency = v.latency ∧ ((c.sws = 0 ∧ v.busOk v.fIrc c.prescaler = true) ∨
    (c.sws = 2 ∧ c.pllcfg = pllCfgValue v ∧ v.busOk v.fTarget c.prescaler = true))

/-- A PLL with the variant's configuration gives F_TARGET (R9 (b), R55). -/
theorem pllOut_of_configured {s : State} (hv : VariantSound s.launch.variant)
    (h : s.clkPllcfg &&& Slot.rwMask .clkPllcfg = pllCfgValue s.launch.variant) :
    s.pllOut = s.launch.variant.fTarget := by
  obtain ⟨hM, hN, hP, hsrc⟩ := pll_of_configured h
  obtain ⟨hM0, -, hP0⟩ := dividersOk_iff.mp hv.dividers
  have htarget := hv.target
  simp only [Variant.targetOk, Bool.and_eq_true, decide_eq_true_eq] at htarget
  have hden : s.launch.variant.pllM.toNat * s.launch.variant.pllP.toNat ≠ 0 :=
    Nat.mul_ne_zero (fun h0 => hM0 (BitVec.eq_of_toNat_eq h0)) fun h0 => hP0 (BitVec.eq_of_toNat_eq h0)
  simp only [State.pllOut, hM, hN, hP, hsrc, if_true, if_neg hden]
  exact htarget.2.symm

theorem checkFrequencies_of_limits {s : State} {v : Variant} {f : Nat} (hv : s.launch.variant = v)
    (hf : s.sysclk = f) (hbus : v.busOk f s.prescaler = true) (hflash : f ≤ v.flashMax s.latency) :
    s.checkFrequencies = s := by
  simp only [Variant.busOk, Bool.and_eq_true, decide_eq_true_eq] at hbus
  obtain ⟨⟨hahb, hapb1⟩, hapb2⟩ := hbus
  have hover : s.overclocked = false := by
    simp only [State.overclocked, State.pclk1, State.pclk2, State.hclk, hf, hv, Bool.or_eq_false_iff,
      decide_eq_false_iff_not, not_lt]
    exact ⟨⟨hahb, hapb1⟩, hapb2⟩
  have hslow : s.flashTooSlow = false := by
    simp only [State.flashTooSlow, hf, hv, decide_eq_false_iff_not, not_lt, hflash]
  unfold State.checkFrequencies
  split
  · rfl
  · simp only [hover, hslow, Bool.false_eq_true, if_false]

/-- The checks after a step pass in a steady state. -/
theorem BringupAt.checkFrequencies_eq {s t : State} {q : SeqState} {c : ClockView} (h : BringupAt s q c t)
    (hv : VariantSound s.launch.variant) (hc : Steady s.launch.variant c) : t.checkFrequencies = t := by
  obtain ⟨hlat, hsource⟩ := hc
  have hlatency : t.latency = s.launch.variant.latency := (congrArg ClockView.latency h.view).trans hlat
  have hflash := hv.flash
  simp only [Variant.flashOk, Bool.and_eq_true, decide_eq_true_eq, ← hlatency] at hflash
  obtain ⟨⟨-, hirc⟩, htarget⟩ := hflash
  have hvar : t.launch.variant = s.launch.variant := by rw [h.launch]
  rw [← h.sws, ← h.prescaler] at hsource
  obtain ⟨hsws, hbus⟩ | ⟨hsws, hcfg, hbus⟩ := hsource
  · have hclk : t.sysclk = s.launch.variant.fIrc := by rw [State.sysclk, hsws, ← hvar]; rfl
    exact checkFrequencies_of_limits hvar hclk hbus hirc
  · have hclk : t.sysclk = s.launch.variant.fTarget := by
      rw [State.sysclk, hsws, ← hvar]
      exact pllOut_of_configured (hvar ▸ hv) (hvar ▸ h.configured hcfg)
    exact checkFrequencies_of_limits hvar hclk hbus htarget

/-! ### Runs of a bring-up -/

/-- The moves take every state of the bring-up at `q` with view `c` to one at `q'` with view `c'`. -/
def Brings (s : State) (ms : List Move) (q : SeqState) (c : ClockView) (q' : SeqState) (c' : ClockView) : Prop :=
  ∀ t, BringupAt s q c t → ∃ u, runMoves ms t = .next u ∧ BringupAt s q' c' u

theorem runMoves_append {ms ms' : List Move} {s t : State} (h : runMoves ms s = .next t) :
    runMoves (ms ++ ms') s = runMoves ms' t := by
  induction ms generalizing s with
  | nil => cases h; rfl
  | cons m ms ih =>
    simp only [runMoves, List.cons_append] at h ⊢
    cases hm : moveStep m s with
    | next u => rw [hm] at h; exact ih h
    | fault r => rw [hm] at h; cases h
    | refused r => rw [hm] at h; cases h

theorem runMoves_singleton {m : Move} {s t : State} (h : moveStep m s = .next t) : runMoves [m] s = .next t := by
  simp only [runMoves, h]

theorem Brings.refl (s : State) (q : SeqState) (c : ClockView) : Brings s [] q c q c := fun t h => ⟨t, rfl, h⟩

theorem Brings.append {s : State} {ms ms' : List Move} {q q' q'' : SeqState} {c c' c'' : ClockView}
    (h : Brings s ms q c q' c') (h' : Brings s ms' q' c' q'' c'') : Brings s (ms ++ ms') q c q'' c'' := by
  intro t ht
  obtain ⟨u, hu, hat⟩ := h t ht
  obtain ⟨w, hw, hat'⟩ := h' u hat
  exact ⟨w, (runMoves_append hu).trans hw, hat'⟩

theorem Brings.cons {s : State} {m : Move} {ms : List Move} {q q' q'' : SeqState} {c c' c'' : ClockView}
    (h : Brings s [m] q c q' c') (h' : Brings s ms q' c' q'' c'') : Brings s (m :: ms) q c q'' c'' :=
  h.append h'

/-- A device in the bring-up: it steps, or has nothing to do. -/
theorem brings_device {s : State} {q : SeqState} {c c' : ClockView} {m : Move} {g : State → State}
    (hv : VariantSound s.launch.variant) (hc : Steady s.launch.variant c') (hperf : ∀ t, perform m t = .next (g t))
    (hoff : ∀ t, BringupAt s q c t → enabled m t = false → c' = c)
    (hon : ∀ t, BringupAt s q c t → BringupAt s q c' (g t)) : Brings s [m] q c q c' := by
  intro t ht
  cases hen : enabled m t with
  | false => exact ⟨t, runMoves_singleton (moveStep_eq_next.mpr (.inl ⟨hen, rfl⟩)), hoff t ht hen ▸ ht⟩
  | true =>
    have hat := hon t ht
    exact ⟨g t, runMoves_singleton
      (moveStep_eq_next.mpr (.inr ⟨hen, _, hperf t, (hat.checkFrequencies_eq hv hc).symm⟩)), hat⟩

/-! ### What each write does to the view -/

theorem regValue_clkPllcfg_configured {s : State} {old : Word} {v : Variant}
    (h : s.clkPllcfg = rwMerge (Slot.rwMask .clkPllcfg) old (pllCfgValue v)) :
    s.regValue .clkPllcfg = pllCfgValue v := by
  have hread : s.regValue .clkPllcfg = s.clkPllcfg &&& Slot.rwMask .clkPllcfg := regValue_of_roMask_eq_zero rfl
  rw [hread, h, rwMerge_pllCfgValue]

section

variable (t : State) (q : SeqState)

theorem clockView_latency (x : BitVec 4) :
    { t with flashAcr := withField t.flashAcr 0 x, seqState := q }.clockView = { t.clockView with latency := x } :=
  congrArg (fun y => { t.clockView with latency := y }) (fieldOf_withField_same t.flashAcr 0 x (by omega))

/-- A bit of CLK_CR that is set and not reserved reads 1. -/
theorem clockView_clkCr {i : Nat} (hi : i < 32) (hbit : (Slot.rwMask .clkCr ||| Slot.roMask .clkCr).getLsbD i = true) :
    { t with clkCr := withBit t.clkCr i true, seqState := q }.clockView =
      { t.clockView with cr := withBit t.clockView.cr i true } := by
  refine congrArg (fun y => { t.clockView with cr := y }) (BitVec.eq_of_getLsbD_eq fun j _ => ?_)
  change ((withBit t.clkCr i true &&& (Slot.rwMask .clkCr ||| Slot.roMask .clkCr)) ||| Slot.hardwired .clkCr).getLsbD j
    = (withBit ((t.clkCr &&& (Slot.rwMask .clkCr ||| Slot.roMask .clkCr)) ||| Slot.hardwired .clkCr) i true).getLsbD j
  simp only [BitVec.getLsbD_or] at hbit
  simp only [BitVec.getLsbD_or, BitVec.getLsbD_and, getLsbD_withBit _ _ _ _ hi]
  by_cases hj : j = i
  · rw [if_pos hj, if_pos hj, hj, hbit]
    rfl
  · rw [if_neg hj, if_neg hj]

theorem clockView_pllcfg (v : Variant) :
    { t with clkPllcfg := rwMerge (Slot.rwMask .clkPllcfg) t.clkPllcfg (pllCfgValue v), seqState := q }.clockView =
      { t.clockView with pllcfg := pllCfgValue v } :=
  congrArg (fun y => { t.clockView with pllcfg := y }) (regValue_clkPllcfg_configured rfl)

theorem clockView_prescaler (p : Prescaler) :
    { t with clkCfgr := withPrescaler t.clkCfgr p, seqState := q }.clockView =
      { t.clockView with prescaler := p } := by
  simp only [State.clockView, prescaler_withPrescaler, State.sw, State.sws]
  rw [fieldOf_withPrescaler_apart _ _ (by omega), fieldOf_withPrescaler_apart _ _ (by omega)]
  rfl

theorem clockView_sw (x : BitVec 2) :
    { t with clkCfgr := withField t.clkCfgr 0 x, seqState := q }.clockView = { t.clockView with sw := x } := by
  simp only [State.clockView, prescaler_withField _ _ _ (show 0 + 2 ≤ 4 by omega), State.sw, State.sws]
  rw [fieldOf_withField_same _ _ _ (by omega), fieldOf_withField_apart _ _ _ _ _ (by omega) (by omega)]
  rfl

theorem clockView_sws (x : BitVec 2) :
    { t with clkCfgr := withField t.clkCfgr 2 x, seqState := q }.clockView = { t.clockView with sws := x } := by
  simp only [State.clockView, prescaler_withField _ _ _ (show 2 + 2 ≤ 4 by omega), State.sw, State.sws]
  rw [fieldOf_withField_same _ _ _ (by omega), fieldOf_withField_apart _ _ _ _ _ (by omega) (by omega)]
  rfl

theorem clockView_tickCtrl :
    { t with tickCtrl := rwMerge (Slot.rwMask .tickCtrl) t.tickCtrl 3, seqState := q }.clockView =
      { t.clockView with tickCtrl := 3 } :=
  congrArg (fun y => { t.clockView with tickCtrl := y }) (regValue_tickCtrl_enabled rfl)

end

/-! ### Steady views -/

section

variable {v : Variant} {c : ClockView} {p : Prescaler}

/-- A prescaler of the variant: legal, and within the bus limits from either source (R9 (d), (f)). -/
structure PrescalerOk (v : Variant) (p : Prescaler) : Prop where
  legal : p.legal = true
  irc : v.busOk v.fIrc p = true
  target : v.busOk v.fTarget p = true

theorem VariantSound.prescFinal (hv : VariantSound v) : PrescalerOk v v.prescFinal := by
  have hbuses := hv.buses
  simp only [Variant.busesOk, Bool.and_eq_true] at hbuses
  obtain ⟨⟨⟨-, hirc⟩, htarget⟩, -⟩ := hbuses
  exact ⟨(codesOk_iff.mp hv.codes).1, hirc, htarget⟩

theorem VariantSound.prescInter (hv : VariantSound v) (hp : v.prescInter = some p) : PrescalerOk v p := by
  have hbuses := hv.buses
  simp only [Variant.busesOk, Bool.and_eq_true, hp] at hbuses
  obtain ⟨-, hirc, htarget⟩ := hbuses
  exact ⟨(codesOk_iff.mp hv.codes).2 p hp, hirc, htarget⟩

theorem Steady.configure (h : Steady v c) : Steady v { c with pllcfg := pllCfgValue v } := by
  obtain ⟨hlat, hsource⟩ := h
  exact ⟨hlat, hsource.imp_right fun ⟨hsws, _, hbus⟩ => ⟨hsws, rfl, hbus⟩⟩

theorem Steady.setPrescaler (h : Steady v c) (hp : PrescalerOk v p) : Steady v { c with prescaler := p } := by
  obtain ⟨hlat, hsource⟩ := h
  exact ⟨hlat, hsource.imp (fun ⟨hsws, _⟩ => ⟨hsws, hp.irc⟩) fun ⟨hsws, hcfg, _⟩ => ⟨hsws, hcfg, hp.target⟩⟩

theorem Steady.switch (h : Steady v c) (hcfg : c.pllcfg = pllCfgValue v) (hp : PrescalerOk v c.prescaler) :
    Steady v { c with sws := 2 } := by
  obtain ⟨hlat, -⟩ := h
  exact ⟨hlat, .inr ⟨rfl, hcfg, hp.target⟩⟩

end

/-! ### The order of the moves and the end (R192, R195) -/

/-- CLK_CR with both sources turned on and ready. -/
def sourcesOn (w : Word) : Word := withBit (withBit (withBit (withBit w 8 true) 9 true) 16 true) 17 true

theorem getLsbD_sourcesOn_pllRdy (w : Word) : (sourcesOn w).getLsbD 17 = true := (withBit_bits _ _ (by omega)).1

/-- The prescaler under which CLKSW switches (R188, R189, R192). -/
def switchPrescaler (v : Variant) : Prescaler :=
  if v.finalAfterSwitch then v.prescInter.getD v.prescFinal else v.prescFinal

theorem VariantSound.switchPrescaler {v : Variant} (hv : VariantSound v) : PrescalerOk v (switchPrescaler v) := by
  unfold Machine.switchPrescaler
  split
  · cases hinter : v.prescInter with
    | none => exact hv.prescFinal
    | some p => exact hv.prescInter hinter
  · exact hv.prescFinal

/-- The view once both sources are on (R183 to R187). -/
def sourcesView (v : Variant) (c : ClockView) : ClockView :=
  { c with latency := v.latency, pllcfg := pllCfgValue v, cr := sourcesOn c.cr }

/-- The view that a bring-up begun with `c` ends in (R195). -/
def targetView (v : Variant) (c : ClockView) : ClockView where
  latency := v.latency
  cr := sourcesOn c.cr
  pllcfg := pllCfgValue v
  sw := 2
  sws := 2
  prescaler := v.prescFinal
  reload := reloadValue v
  tickCtrl := 3

/-- The moves of the prescaler steps before the switch (R188, R189). -/
def prescalerMoves (v : Variant) : List Move :=
  if v.prescInter.isSome && !v.finalAfterSwitch then [.cseq, .cseq] else [.cseq]

/-- The moves of the switch and of the prescaler step after it (R190, R191, R193). -/
def switchMoves (v : Variant) : List Move :=
  [Move.cseq, .clksw, .cseq] ++ (if v.finalAfterSwitch then [Move.cseq] else [])

/-- The moves of a bring-up, but HOST's last. -/
def sequencerMoves (v : Variant) : List Move :=
  [Move.cseq, .cseq, .osc, .cseq, .cseq, .cseq, .pll, .cseq]
    ++ (prescalerMoves v ++ (switchMoves v ++ [Move.cseq, .cseq]))

theorem bringupMoves_eq (v : Variant) : bringupMoves v = sequencerMoves v ++ [.host] := by
  simp only [bringupMoves, sequencerMoves, prescalerMoves, switchMoves, List.append_assoc]
  rfl

theorem withBit_of_getLsbD {w : Word} {i : Nat} (hi : i < 32) (h : w.getLsbD i = true) : withBit w i true = w := by
  apply BitVec.eq_of_getLsbD_eq
  intro j _
  rw [getLsbD_withBit _ _ _ _ hi]
  split
  · next hj => rw [hj, h]
  · rfl

theorem BringupAt.running {s t : State} {q : SeqState} {c : ClockView} (hf : s.fault = none) (hp : s.pstate = .run)
    (h : BringupAt s q c t) : t.running = true := running_iff.mpr ⟨h.pstate.trans hp, h.fault.trans hf⟩

/-! ### What each move does (R183 to R194, R210 to R212) -/

section

variable {s : State} {q q' : SeqState} {c c' : ClockView} (hv : VariantSound s.launch.variant)
  (hf : s.fault = none) (hp : s.pstate = .run)

include hv hf hp

/-- A step of CSEQ in the bring-up. -/
theorem brings_cseq (hq : q ≠ .idle) (hc : Steady s.launch.variant c')
    (hstep : ∀ t, BringupAt s q c t → ∃ u, cseqStep t = .ok u ∧ BringupAt s q' c' u) :
    Brings s [.cseq] q c q' c' := by
  intro t ht
  obtain ⟨u, hu, hat⟩ := hstep t ht
  have hen : enabled .cseq t = true :=
    (enabled_cseq_iff (ht.fault.trans hf)).mpr ⟨ht.pstate.trans hp, ht.seqState ▸ hq⟩
  have hperf : perform .cseq t = .next u := by simp only [perform, hu, commit_ok]
  exact ⟨u, runMoves_singleton
    (moveStep_eq_next.mpr (.inr ⟨hen, u, hperf, (hat.checkFrequencies_eq hv hc).symm⟩)), hat⟩

theorem brings_s1Flash (hc : Steady s.launch.variant { c with latency := s.launch.variant.latency }) :
    Brings s [.cseq] .s1Flash c .s2XoscOn { c with latency := s.launch.variant.latency } :=
  brings_cseq hv hf hp nofun hc fun t ht => ⟨_, cseqStep_s1Flash ht.seqState, ht.frame, rfl, by
    rw [clockView_latency, ht.view, ht.launch]⟩

theorem brings_s2XoscOn (hc : Steady s.launch.variant c) :
    Brings s [.cseq] .s2XoscOn c .s2XoscWait { c with cr := withBit c.cr 8 true } :=
  brings_cseq hv hf hp nofun hc fun t ht => ⟨_, cseqStep_s2XoscOn ht.seqState, ht.frame, rfl, by
    rw [clockView_clkCr _ _ (by omega) (by decide), ht.view]⟩

theorem brings_osc (hc : Steady s.launch.variant c) (hon : c.cr.getLsbD 8 = true)
    (hxtal : s.launch.xtalPresent = true) : Brings s [.osc] q c q { c with cr := withBit c.cr 9 true } := by
  refine brings_device (g := oscStep) hv hc (fun _ => rfl) (fun t ht hoff => ?_) fun t ht =>
    ⟨ht.frame, ht.seqState, by
      rw [← ht.view, ← clockView_clkCr t t.seqState (by omega) (by decide)]
      rfl⟩
  have hrdy : c.cr.getLsbD 9 = true := by
    rw [← ht.xoscRdy]
    by_contra hno
    have hen := (enabled_osc_iff (ht.running hf hp)).mpr
      ⟨ht.xoscOn.trans hon, Bool.eq_false_of_not_eq_true hno, by rw [ht.launch, hxtal]⟩
    simp [hoff] at hen
  rw [withBit_of_getLsbD (by omega) hrdy]

theorem brings_s2XoscWait (hc : Steady s.launch.variant c) (hrdy : c.cr.getLsbD 9 = true) :
    Brings s [.cseq] .s2XoscWait c .s3PllCfg c :=
  brings_cseq hv hf hp nofun hc fun t ht => by
    refine ⟨_, cseqStep_s2XoscWait ht.seqState, ?_⟩
    rw [if_pos (ht.xoscRdy.trans hrdy)]
    exact ⟨ht.frame, rfl, ht.view⟩

theorem brings_s3PllCfg (hc : Steady s.launch.variant c)
    (hcfg : c.cr.getLsbD 16 = true → c.pllcfg = pllCfgValue s.launch.variant) :
    Brings s [.cseq] .s3PllCfg c .s3PllOn { c with pllcfg := pllCfgValue s.launch.variant } :=
  brings_cseq hv hf hp nofun hc.configure fun t ht => by
    have hstep := cseqStep_s3PllCfg ht.seqState fun hon => by
      rw [ht.launch]
      exact ht.configured (hcfg (ht.pllOn.symm.trans hon))
    exact ⟨_, hstep, ht.frame, rfl, by rw [clockView_pllcfg, ht.view, ht.launch]⟩

theorem brings_s3PllOn (hc : Steady s.launch.variant c) (hcfg : c.pllcfg = pllCfgValue s.launch.variant) :
    Brings s [.cseq] .s3PllOn c .s3PllWait { c with cr := withBit c.cr 16 true } :=
  brings_cseq hv hf hp nofun hc fun t ht => by
    obtain ⟨hM, hN, hP, -⟩ := pll_of_configured (ht.configured hcfg)
    have hlock : t.pllM ≠ 0 ∧ t.pllN ≠ 0 ∧ t.pllP ≠ 0 := by
      rw [hM, hN, hP]
      exact dividersOk_iff.mp hv.dividers
    exact ⟨_, cseqStep_s3PllOn ht.seqState (.inr hlock), ht.frame, rfl, by
      rw [clockView_clkCr _ _ (by omega) (by decide), ht.view]⟩

theorem brings_pll (hc : Steady s.launch.variant c) (hon : c.cr.getLsbD 16 = true) (hxosc : c.cr.getLsbD 9 = true)
    (hlocks : s.launch.pllLocks = true) : Brings s [.pll] q c q { c with cr := withBit c.cr 17 true } := by
  refine brings_device (g := pllStep) hv hc (fun _ => rfl) (fun t ht hoff => ?_) fun t ht =>
    ⟨ht.frame, ht.seqState, by
      rw [← ht.view, ← clockView_clkCr t t.seqState (by omega) (by decide)]
      rfl⟩
  have hrdy : c.cr.getLsbD 17 = true := by
    rw [← ht.pllRdy]
    by_contra hno
    have hen := (enabled_pll_iff (ht.running hf hp)).mpr ⟨ht.pllOn.trans hon, Bool.eq_false_of_not_eq_true hno,
      by rw [ht.launch, hlocks], .inr (ht.xoscRdy.trans hxosc)⟩
    simp [hoff] at hen
  rw [withBit_of_getLsbD (by omega) hrdy]

theorem brings_s3PllWait (hc : Steady s.launch.variant c) (hrdy : c.cr.getLsbD 17 = true) :
    Brings s [.cseq] .s3PllWait c
      (if s.launch.variant.prescInter.isSome then .s4PrescInter else .s4PrescFinal) c :=
  brings_cseq hv hf hp nofun hc fun t ht => by
    refine ⟨_, cseqStep_s3PllWait ht.seqState, ?_⟩
    rw [if_pos (ht.pllRdy.trans hrdy)]
    exact ⟨ht.frame, by simp only [ht.launch], ht.view⟩

/-- One of the three prescaler steps. -/
theorem brings_prescaler {p : Prescaler} (hstep : PrescalerStep { s with seqState := q } p q')
    (hpresc : PrescalerOk s.launch.variant p) (hc : Steady s.launch.variant c) (hsw : c.sw ≠ 3) :
    Brings s [.cseq] q c q' { c with prescaler := p } := by
  have hq : q ≠ .idle := by
    rintro rfl
    simp [PrescalerStep] at hstep
  refine brings_cseq hv hf hp hq (hc.setPrescaler hpresc) fun t ht => ?_
  have hstep' : PrescalerStep t p q' := by
    unfold PrescalerStep
    rw [ht.seqState, ht.launch]
    exact hstep
  exact ⟨_, hstep'.cseqStep_of_legal hpresc.legal (ht.sw ▸ hsw), ht.frame, rfl, by rw [clockView_prescaler, ht.view]⟩

theorem brings_s5Switch (hc : Steady s.launch.variant c) (hpresc : PrescalerOk s.launch.variant c.prescaler)
    (hsw : c.sw ≠ 3) : Brings s [.cseq] .s5Switch c .s5SwitchWait { c with sw := 2 } :=
  brings_cseq hv hf hp nofun hc fun t ht => by
    have hcode : Slot.reservedCode .clkCfgr t.clkCfgr = false := by
      have hsw' : fieldOf t.clkCfgr 0 2 ≠ 3 := fun h => hsw (ht.sw.symm.trans h)
      rw [reservedCode_eq (p := t.prescaler) rfl rfl rfl, ht.prescaler, hpresc.legal, decide_eq_false hsw']
      rfl
    exact ⟨_, cseqStep_s5Switch ht.seqState hcode, ht.frame, rfl, by rw [clockView_sw, ht.view]; rfl⟩

theorem brings_clksw (hc : Steady s.launch.variant c) (hcfg : c.pllcfg = pllCfgValue s.launch.variant)
    (hpresc : PrescalerOk s.launch.variant c.prescaler) (hsw : c.sw = 2) (hrdy : c.cr.getLsbD 17 = true) :
    Brings s [.clksw] q c q { c with sws := 2 } := by
  refine brings_device (g := clkswStep) hv (hc.switch hcfg hpresc) (fun _ => rfl) (fun t ht hoff => ?_) fun t ht =>
    ⟨ht.frame, ht.seqState, by
      rw [← ht.view, ← clockView_sws t t.seqState, ← hsw, ← ht.sw]
      rfl⟩
  have hsws : c.sws = 2 := by
    rw [← ht.sws]
    by_contra hno
    have hsw' : t.sw = 2 := ht.sw.trans hsw
    have hen := (enabled_clksw_iff (ht.running hf hp) (by rw [hsw']; decide)).mpr
      ⟨by rwa [hsw'], by simp [hsw'], fun _ => ht.pllRdy.trans hrdy⟩
    simp [hoff] at hen
  rw [← hsws]

theorem brings_s5SwitchWait (hc : Steady s.launch.variant c) (hsws : c.sws = 2) :
    Brings s [.cseq] .s5SwitchWait c
      (if s.launch.variant.finalAfterSwitch then .s4PrescLate else .s6TickArm) c :=
  brings_cseq hv hf hp nofun hc fun t ht => by
    refine ⟨_, cseqStep_s5SwitchWait ht.seqState, ?_⟩
    rw [if_pos (ht.sws.trans hsws)]
    exact ⟨ht.frame, by simp only [ht.launch], ht.view⟩

theorem brings_s6TickArm (hc : Steady s.launch.variant c) :
    Brings s [.cseq] .s6TickArm c .s6TickEn { c with reload := reloadValue s.launch.variant } :=
  brings_cseq hv hf hp nofun hc fun t ht => ⟨_, cseqStep_s6TickArm ht.seqState, ht.frame, rfl, by
    rw [← ht.view, ← ht.launch]
    rfl⟩

theorem brings_s6TickEn (hc : Steady s.launch.variant c) :
    Brings s [.cseq] .s6TickEn c .idle { c with tickCtrl := 3 } :=
  brings_cseq hv hf hp nofun hc fun t ht => ⟨_, cseqStep_s6TickEn ht.seqState, ht.frame, rfl, by
    rw [clockView_tickCtrl, ht.view]⟩

/-- S1_FLASH to the end of S3_PLL_WAIT: the flash, the oscillator and the PLL. -/
theorem brings_sources (hc : Steady s.launch.variant { c with latency := s.launch.variant.latency })
    (hcfg : (withBit (withBit c.cr 8 true) 9 true).getLsbD 16 = true → c.pllcfg = pllCfgValue s.launch.variant)
    (hxtal : s.launch.xtalPresent = true) (hlocks : s.launch.pllLocks = true) :
    Brings s [.cseq, .cseq, .osc, .cseq, .cseq, .cseq, .pll, .cseq] .s1Flash c
      (if s.launch.variant.prescInter.isSome then .s4PrescInter else .s4PrescFinal)
      (sourcesView s.launch.variant c) := by
  have hrdy : (withBit (withBit c.cr 8 true) 9 true).getLsbD 9 = true := (withBit_bits _ _ (by omega)).1
  have hon : (withBit (withBit (withBit c.cr 8 true) 9 true) 16 true).getLsbD 16 = true :=
    (withBit_bits _ _ (by omega)).1
  have hrdy' : (withBit (withBit (withBit c.cr 8 true) 9 true) 16 true).getLsbD 9 = true := by
    rw [(withBit_bits _ _ (by omega)).2 9 (by omega), hrdy]
  exact .cons (brings_s1Flash hv hf hp hc) <|
    .cons (brings_s2XoscOn hv hf hp hc) <|
    .cons (brings_osc hv hf hp hc (withBit_bits _ _ (by omega)).1 hxtal) <|
    .cons (brings_s2XoscWait hv hf hp hc hrdy) <|
    .cons (brings_s3PllCfg hv hf hp hc hcfg) <|
    .cons (brings_s3PllOn hv hf hp hc.configure rfl) <|
    .cons (brings_pll hv hf hp hc.configure hon hrdy' hlocks) <|
    brings_s3PllWait hv hf hp hc.configure (getLsbD_sourcesOn_pllRdy c.cr)

/-- The prescaler steps before the switch. -/
theorem brings_prescalers (hc : Steady s.launch.variant c) (hsw : c.sw ≠ 3) :
    Brings s (prescalerMoves s.launch.variant)
      (if s.launch.variant.prescInter.isSome then .s4PrescInter else .s4PrescFinal) c
      .s5Switch { c with prescaler := switchPrescaler s.launch.variant } := by
  have hfinal {c : ClockView} (hc : Steady s.launch.variant c) (hsw : c.sw ≠ 3) :=
    brings_prescaler hv hf hp (q := .s4PrescFinal) (.inr (.inl ⟨rfl, rfl, rfl⟩)) hv.prescFinal hc hsw
  unfold prescalerMoves
  cases hinter : s.launch.variant.prescInter with
  | none =>
    have hpresc : switchPrescaler s.launch.variant = s.launch.variant.prescFinal := by
      simp [switchPrescaler, hinter]
    rw [hpresc]
    exact hfinal hc hsw
  | some p =>
    have hok := hv.prescInter hinter
    have hfirst := brings_prescaler hv hf hp (q := .s4PrescInter) (.inl ⟨rfl, hinter, rfl⟩) hok hc hsw
    cases hafter : s.launch.variant.finalAfterSwitch with
    | true =>
      simp only [hafter, if_true] at hfirst
      simpa [switchPrescaler, hafter, hinter] using hfirst
    | false =>
      simp only [hafter, Bool.false_eq_true, if_false] at hfirst
      simpa [switchPrescaler, hafter] using hfirst.append (hfinal (hc.setPrescaler hok) hsw)

/-- The switch to the PLL, and the final prescaler after it where the variant asks for it there. -/
theorem brings_switch (hc : Steady s.launch.variant c) (hcfg : c.pllcfg = pllCfgValue s.launch.variant)
    (hpresc : c.prescaler = switchPrescaler s.launch.variant) (hsw : c.sw ≠ 3) (hrdy : c.cr.getLsbD 17 = true) :
    Brings s (switchMoves s.launch.variant) .s5Switch c .s6TickArm
      { c with sw := 2, sws := 2, prescaler := s.launch.variant.prescFinal } := by
  have hok : PrescalerOk s.launch.variant c.prescaler := hpresc ▸ hv.switchPrescaler
  have hsteady : Steady s.launch.variant { c with sw := 2, sws := 2 } := hc.switch hcfg hok
  have hrun : Brings s [.cseq, .clksw, .cseq] .s5Switch c
      (if s.launch.variant.finalAfterSwitch then .s4PrescLate else .s6TickArm) { c with sw := 2, sws := 2 } :=
    .cons (brings_s5Switch hv hf hp hc hok hsw) <|
    .cons (brings_clksw hv hf hp hc hcfg hok rfl hrdy) <| brings_s5SwitchWait hv hf hp hsteady rfl
  refine hrun.append ?_
  cases hafter : s.launch.variant.finalAfterSwitch with
  | true =>
    exact brings_prescaler hv hf hp (.inr (.inr ⟨rfl, rfl, rfl⟩)) hv.prescFinal hsteady nofun
  | false =>
    have hfinal : c.prescaler = s.launch.variant.prescFinal := by simp [hpresc, switchPrescaler, hafter]
    rw [← hfinal]
    exact .refl s _ _

/-- CSEQ and the devices take the clock to the target. -/
theorem brings_target (hc : Steady s.launch.variant { c with latency := s.launch.variant.latency })
    (hcfg : (withBit (withBit c.cr 8 true) 9 true).getLsbD 16 = true → c.pllcfg = pllCfgValue s.launch.variant)
    (hsw : c.sw ≠ 3) (hxtal : s.launch.xtalPresent = true) (hlocks : s.launch.pllLocks = true) :
    Brings s (sequencerMoves s.launch.variant) .s1Flash c .idle (targetView s.launch.variant c) := by
  have hsources := brings_sources hv hf hp hc hcfg hxtal hlocks
  have hsteady : Steady s.launch.variant (sourcesView s.launch.variant c) := hc.configure
  have hprescalers := brings_prescalers hv hf hp hsteady hsw
  have hready := hsteady.setPrescaler hv.switchPrescaler
  have hswitch := brings_switch hv hf hp hready rfl rfl hsw (getLsbD_sourcesOn_pllRdy c.cr)
  have hdone : Steady s.launch.variant (targetView s.launch.variant c) :=
    (hready.switch rfl hv.switchPrescaler).setPrescaler hv.prescFinal
  exact hsources.append <| hprescalers.append <| hswitch.append <|
    .cons (brings_s6TickArm hv hf hp hdone) <| brings_s6TickEn hv hf hp hdone

end

/-! ### The statement -/

/-- HOST's step once CSEQ is idle: the bring-up is complete. -/
theorem moveStep_host_of_bringup {s t : State} {c : ClockView} (hv : VariantSound s.launch.variant)
    (hf : s.fault = none) (hp : s.pstate = .run) (hb : s.busy = true) (hms : s.current.ms = .ms2)
    (hd : decode s.current.word = .ok .bringup) (h : BringupAt s .idle c t) (hc : Steady s.launch.variant c) :
    moveStep .host t = .next t.done := by
  have hb' : t.busy = true := h.busy.trans hb
  have hen : enabled .host t = true :=
    (enabled_host_iff (h.fault.trans hf)).mpr ⟨h.pstate.trans hp, fun _ => h.seqState, by simp [hb']⟩
  have hperf : perform .host t = .next t.done := by
    refine (hostStep_of_busy hb' (by rw [h.current, hd])).trans ?_
    rw [exec_bringup_ms2 (by rw [h.current, hms]), if_pos h.seqState]
  have hsteady : t.done.checkFrequencies = t.done := by
    have hat : BringupAt s.done .idle c t.done := ⟨congrArg State.done h.frame, h.seqState, h.view⟩
    exact hat.checkFrequencies_eq hv hc
  exact moveStep_eq_next.mpr (.inr ⟨hen, _, hperf, hsteady.symm⟩)

/-- The views a bring-up may start from: the clock registers at their reset values, as a bring-up leaves them, or as a
reverting wake from stop leaves those (R195, R205). -/
def StartView (v : Variant) (c : ClockView) : Prop :=
  (c.cr = 3 ∧ c.sw = 0 ∧ c.sws = 0 ∧ c.prescaler = Prescaler.one) ∨
    (c.prescaler = v.prescFinal ∧ c.pllcfg = pllCfgValue v ∧
      ((c.cr = 0x00030303 ∧ c.sw = 2 ∧ c.sws = 2) ∨ (c.cr = 3 ∧ c.sw = 0 ∧ c.sws = 0)))

/-- A reset state has the bring-up's first view. -/
theorem startView_of_reset {s : State} {v : Variant} (hcr : s.clkCr = 3) (hcfgr : s.clkCfgr = 0) :
    StartView v s.clockView := by
  refine .inl ⟨?_, ?_, ?_, ?_⟩
  · simp only [State.clockView, State.regValue, State.stored, hcr]
    decide
  all_goals
    simp only [State.clockView, State.sw, State.sws, State.prescaler, hcfgr]
    decide

theorem VariantSound.irc_one {v : Variant} (hv : VariantSound v) : v.busOk v.fIrc Prescaler.one = true := by
  have hbuses := hv.buses
  simp only [Variant.busesOk, Bool.and_eq_true] at hbuses
  obtain ⟨⟨⟨hone, -⟩, -⟩, -⟩ := hbuses
  exact hone

section

variable {v : Variant} {c : ClockView} (hc : StartView v c)

include hc

theorem StartView.steady (hv : VariantSound v) : Steady v { c with latency := v.latency } := by
  refine ⟨rfl, ?_⟩
  obtain ⟨-, -, hsws, hpresc⟩ | ⟨hpresc, hcfg, ⟨-, -, hsws⟩ | ⟨-, -, hsws⟩⟩ := hc
  · exact .inl ⟨hsws, hpresc ▸ hv.irc_one⟩
  · exact .inr ⟨hsws, hcfg, hpresc ▸ hv.prescFinal.target⟩
  · exact .inl ⟨hsws, hpresc ▸ hv.prescFinal.irc⟩

/-- Where the PLL runs already, it has the variant's configuration. -/
theorem StartView.configured (hon : (withBit (withBit c.cr 8 true) 9 true).getLsbD 16 = true) :
    c.pllcfg = pllCfgValue v := by
  obtain ⟨hcr, -⟩ | ⟨-, hcfg, -⟩ := hc
  · rw [hcr] at hon
    exact absurd hon (by decide)
  · exact hcfg

theorem StartView.sw_ne : c.sw ≠ 3 := by
  obtain ⟨-, hsw, -⟩ | ⟨-, -, ⟨-, hsw, -⟩ | ⟨-, hsw, -⟩⟩ := hc <;> rw [hsw] <;> decide

theorem StartView.sourcesOn : sourcesOn c.cr = 0x00030303 := by
  obtain ⟨hcr, -⟩ | ⟨-, -, ⟨hcr, -⟩ | ⟨hcr, -⟩⟩ := hc <;> rw [hcr] <;> decide

end

/-- Settles O47: the moves but HOST's take the view to the target, and HOST's completes the command. -/
theorem bringupReachesTheTarget : Obligations.BringupReachesTheTarget := by
  unfold Obligations.BringupReachesTheTarget
  intro s hf hp hb hms hq hd hwf hfit hxtal hlocks hstart
  have hv := VariantSound.of_wellFormed hwf
  have hview : StartView s.launch.variant s.clockView := by
    obtain ⟨-, hcr, -, hcfgr⟩ | ⟨-, hpresc, hcfg, hclock⟩ := hstart
    · exact startView_of_reset hcr hcfgr
    · exact .inr ⟨hpresc, hcfg, hclock⟩
  have hrun := brings_target hv hf hp (hview.steady hv) hview.configured hview.sw_ne hxtal hlocks
  obtain ⟨t, ht, hat⟩ := hrun s ⟨rfl, hq, rfl⟩
  have htarget : Steady s.launch.variant (targetView s.launch.variant s.clockView) :=
    ⟨rfl, .inr ⟨rfl, rfl, hv.prescFinal.target⟩⟩
  have hhost := moveStep_host_of_bringup hv hf hp hb hms hd hat htarget
  have hcfg : t.clkPllcfg &&& Slot.rwMask .clkPllcfg = pllCfgValue s.launch.variant := hat.configured rfl
  have hvar : t.launch.variant = s.launch.variant := by rw [hat.launch]
  refine ⟨t.done, ?_, ?_, congrArg ClockView.latency hat.view,
    (congrArg ClockView.cr hat.view).trans hview.sourcesOn, congrArg ClockView.pllcfg hat.view, hat.sw, hat.sws,
    hat.prescaler, ?_, congrArg ClockView.tickCtrl hat.view, ?_, if_pos hat.sws⟩
  · rw [bringupMoves_eq, runMoves_append ht, runMoves_singleton hhost]
  · exact congrArg State.done hat.eq
  · exact (congrArg ClockView.reload hat.view).trans (if_pos hfit)
  · calc t.done.sysclk = t.srcFreq t.sws := rfl
      _ = t.pllOut := by rw [hat.sws]; rfl
      _ = s.launch.variant.fTarget := by rw [pllOut_of_configured (hvar ▸ hv) (hvar ▸ hcfg), hvar]

end Sys2Proof.Machine
end

section
/-! SUPPORT. The commands TRYPUT, TRYGET, ISFULL, ISEMPTY and COUNT micro-step by micro-step (R231 to R237). -/

namespace Sys2Proof.Machine

/-- TRYGET's result: the flag 0x100 and the byte do not meet (R234). -/
theorem takenFlag_or_byte (b : Byte) : 0x100#32 ||| b.setWidth 32 = BitVec.ofNat 32 (256 + b.toNat) := by
  have hb := b.isLt
  apply BitVec.eq_of_toNat_eq
  have hor : 256 ||| b.toNat = 256 + b.toNat := (Nat.two_pow_add_eq_or_of_lt (i := 8) hb 1).symm
  simp only [BitVec.toNat_or, BitVec.toNat_setWidth, BitVec.toNat_ofNat]
  rw [Nat.mod_eq_of_lt (by omega : b.toNat < 2 ^ 32), Nat.mod_eq_of_lt (by omega : 256 + b.toNat < 2 ^ 32)]
  exact hor

/-- Settles O22: the branches of TRYPUT's meaning, one per clause. -/
theorem tryputMicroSteps : Obligations.TryputMicroSteps := by
  unfold Obligations.TryputMicroSteps
  intro s k b
  refine ⟨fun hms hex => ?_, fun hms hchen => ?_, fun hms hfull => ?_, fun hms hfull hw => ?_, fun hms => ?_⟩
  · have hno : (s.chen && k == .rx) = false := by simpa using hex
    simp [exec, execTryput, hms, hno]
  · simp [exec, execTryput, hms, hchen]
  · simp [exec, execTryput, hms, ringFull, nextIndex, hfull]
  · simp [exec, execTryput, hms, ringFull, nextIndex, hfull, writeRingSlot, hw, State.goto]
  · simp only [exec, execTryput, hms]
    rfl

/-- Settles O23: the branches of TRYGET's meaning, one per clause. -/
theorem trygetMicroSteps : Obligations.TrygetMicroSteps := by
  unfold Obligations.TrygetMicroSteps
  intro s k
  refine ⟨fun hms hex => ?_, fun hms hchen => ?_, fun hms hempty => ?_, fun hms hempty hr => ?_, fun hms => ?_⟩
  · have hno : (s.chen && k == .tx) = false := by simpa using hex
    simp [exec, execTryget, hms, hno]
  · simp [exec, execTryget, hms, hchen]
  · simp [exec, execTryget, hms, hempty]
  · simp [exec, execTryget, hms, hempty, readRingSlot, hr]
  · simp only [exec, execTryget, hms, takenFlag_or_byte]
    rfl

/-- Settles O24: the snapshot is one for the three queries, the answers are theirs. -/
theorem ringQueriesAnswer : Obligations.RingQueriesAnswer := by
  unfold Obligations.RingQueriesAnswer
  intro s k i
  refine ⟨fun hms hi => ?_, fun hms => ⟨?_, ?_, ?_⟩⟩
  · obtain rfl | rfl | rfl := hi
    · simp [exec, execIsfull, hms]
    · simp [exec, execIsempty, hms]
    · simp [exec, execCount, hms]
  · simp [exec, execIsfull, hms, ringFull, nextIndex]
  · simp [exec, execIsempty, hms]
  · simp [exec, execCount, hms, ringCount]

end Sys2Proof.Machine
end

section
/-! SUPPORT. The bytes a ring holds (R230, R238): the count and the indices as numbers, what a write to ring RAM leaves
of a ring, and what a put appends and a get takes. -/

namespace Sys2Proof.Machine

/-! ### Counts and indices -/

/-- The index `j` places after `r`, without a remainder. -/
theorem index_after {r j n : Nat} (hr : r < n) (hj : j ≤ n) : (r + j) % n = if r + j < n then r + j else r + j - n := by
  split
  · next h => exact Nat.mod_eq_of_lt h
  · next h => rw [Nat.mod_eq_sub_mod (by omega), Nat.mod_eq_of_lt (by omega)]

section

variable {l : Launch} {k : RingId} {w r : Word} (hw : w.toNat < ringCap l k) (hr : r.toNat < ringCap l k)
include hw hr

theorem ringCount_lt : ringCount l k w r < ringCap l k := by
  rw [ringCount_eq hw hr]
  split_ifs <;> omega

theorem ringCount_eq_zero : ringCount l k w r = 0 ↔ w = r := by
  rw [ringCount_eq hw hr, ← BitVec.toNat_inj]
  split_ifs <;> omega

/-- A ring is full when one slot is left (R230, R239). -/
theorem ringFull_iff_count : ringFull l k w r = true ↔ ringCount l k w r + 1 = ringCap l k := by
  rw [ringFull_iff, nextIndex_eq hw, ringCount_eq hw hr]
  split_ifs <;> omega

/-- The write index is as many places after the read index as the ring holds bytes. -/
theorem index_after_count : (r.toNat + ringCount l k w r) % ringCap l k = w.toNat := by
  rw [index_after hr (ringCount_lt hw hr).le, ringCount_eq hw hr]
  split_ifs <;> omega

theorem index_after_ne {j : Nat} (hj : j < ringCount l k w r) : (r.toNat + j) % ringCap l k ≠ w.toNat := by
  have hlt := ringCount_lt hw hr
  rw [index_after hr (by omega)]
  rw [ringCount_eq hw hr] at hj
  split_ifs at hj ⊢ <;> omega

variable (hl : l.wellFormed = true)
include hl

/-- Publishing one byte counts one more, if there is room for it. -/
theorem ringCount_nextIndex_write (hfull : ringFull l k w r = false) :
    ringCount l k (BitVec.ofNat 32 (nextIndex l k w)) r = ringCount l k w r + 1 := by
  obtain ⟨hnat, hlt⟩ := nextIndex_toNat hl k w
  have hne : nextIndex l k w ≠ r.toNat := by simpa [ringFull] using hfull
  rw [ringCount_eq (hnat.trans_lt hlt) hr, ringCount_eq hw hr, hnat]
  rw [nextIndex_eq hw] at hne ⊢
  split_ifs at hne ⊢ <;> omega

/-- Releasing one byte counts one less, if there is one. -/
theorem ringCount_nextIndex_read (hne : w ≠ r) :
    ringCount l k w r = ringCount l k w (BitVec.ofNat 32 (nextIndex l k r)) + 1 := by
  obtain ⟨hnat, hlt⟩ := nextIndex_toNat hl k r
  have hne' : w.toNat ≠ r.toNat := fun h => hne (BitVec.eq_of_toNat_eq h)
  rw [ringCount_eq hw hr, ringCount_eq hw (hnat.trans_lt hlt), hnat, nextIndex_eq hr]
  split_ifs <;> omega

end

/-! ### The bytes a ring holds -/

/-- The byte in slot `n` of ring `k` (R102). -/
def State.slotByte (s : State) (k : RingId) (n : Nat) : Byte := memGet s.mem (ringSlotAddr s.launch k n)

theorem length_ringContents (s : State) (k : RingId) :
    (ringContents s k).length = ringCount s.launch k (s.ringW k) (s.ringR k) := by
  simp [ringContents]

/-- A ring whose indices and whose bytes between them read the same holds the same. -/
theorem ringContents_congr {s t : State} {k : RingId} (hl : t.launch = s.launch) (hw : t.ringW k = s.ringW k)
    (hr : t.ringR k = s.ringR k)
    (hslot : ∀ j < ringCount s.launch k (s.ringW k) (s.ringR k),
      t.slotByte k (((s.ringR k).toNat + j) % ringCap s.launch k) =
        s.slotByte k (((s.ringR k).toNat + j) % ringCap s.launch k)) :
    ringContents t k = ringContents s k := by
  simp only [ringContents, hl, hw, hr]
  refine List.map_congr_left fun j hj => ?_
  simpa only [State.slotByte, hl] using hslot j (List.mem_range.mp hj)

/-- The launch parameters and ring RAM, so both rings, are the same in both states. -/
structure SameRings (s t : State) : Prop where
  launch : t.launch = s.launch
  mem : t.mem = s.mem

theorem SameRings.ringW {s t : State} (h : SameRings s t) (k : RingId) : t.ringW k = s.ringW k := by
  simp only [State.ringW, h.launch, h.mem]

theorem SameRings.ringR {s t : State} (h : SameRings s t) (k : RingId) : t.ringR k = s.ringR k := by
  simp only [State.ringR, h.launch, h.mem]

theorem SameRings.slotByte {s t : State} (h : SameRings s t) (k : RingId) (n : Nat) :
    t.slotByte k n = s.slotByte k n := by
  simp only [State.slotByte, h.launch, h.mem]

theorem SameRings.contents {s t : State} (h : SameRings s t) (k : RingId) : ringContents t k = ringContents s k :=
  ringContents_congr h.launch (h.ringW k) (h.ringR k) fun _ _ => h.slotByte k _

theorem SameRings.ringsSound {s t : State} (h : SameRings s t) (hs : RingsSound s) : RingsSound t :=
  hs.of_mem h.launch h.mem

/-! ### A put: the data slot, then the index -/

/-- The state with `b` in the data slot at W_k, not yet published (R233). -/
def State.fill (s : State) (k : RingId) (b : Byte) : State :=
  { s with mem := memSet s.mem (ringSlotAddr s.launch k (s.ringW k).toNat) b }

/-- A put into a full ring does nothing (R233). -/
theorem putByte_of_full {s : State} {k : RingId} {b : Byte}
    (hfull : ringFull s.launch k (s.ringW k) (s.ringR k) = true) : putByte s k b = .ok s := by
  simp [putByte, hfull]

section

variable {s : State} {k q : RingId} (hs : RingsSound s)
include hs

theorem RingsSound.index_lt (q : RingId) (n : Nat) : n % ringCap s.launch q < ringCap s.launch q :=
  Nat.mod_lt _ (Nat.zero_lt_of_lt (hs.indexW q))

/-- An index write leaves every data slot (R102). -/
theorem slotByte_setRingW {n : Nat} (hn : n < ringCap s.launch q) (v : Word) :
    (s.setRingW k v).slotByte q n = s.slotByte q n := by
  refine memGet_memWrite4_outside (a := ringBase s.launch k) (b := ringBase s.launch q + 8 + n) ?_ _ _
  by_cases hne : q = k
  · subst hne; omega
  · have hap := ringRegions_apart hs.launch hne
    omega

theorem slotByte_setRingR {n : Nat} (hn : n < ringCap s.launch q) (v : Word) :
    (s.setRingR k v).slotByte q n = s.slotByte q n := by
  refine memGet_memWrite4_outside (a := ringBase s.launch k + 4) (b := ringBase s.launch q + 8 + n) ?_ _ _
  by_cases hne : q = k
  · subst hne; omega
  · have hap := ringRegions_apart hs.launch hne
    omega

theorem RingsSound.fill (b : Byte) : RingsSound (s.fill k b) := hs.memSet_slot (hs.indexW k) b

theorem ringW_fill (b : Byte) : (s.fill k b).ringW q = s.ringW q :=
  (ringIndices_memSet_slot hs.launch (hs.indexW k) b q).1

theorem ringR_fill (b : Byte) : (s.fill k b).ringR q = s.ringR q :=
  (ringIndices_memSet_slot hs.launch (hs.indexW k) b q).2

theorem slotByte_fill_same (b : Byte) : (s.fill k b).slotByte k (s.ringW k).toNat = b :=
  memGet_memSet_same hs.canonical _ _

theorem slotByte_fill_ne {n : Nat} (hn : n < ringCap s.launch q) (hne : q = k → n ≠ (s.ringW k).toNat) (b : Byte) :
    (s.fill k b).slotByte q n = s.slotByte q n := by
  refine memGet_memSet_ne (a := ringBase s.launch k + 8 + (s.ringW k).toNat) (b := ringBase s.launch q + 8 + n) ?_ _ _
  by_cases hq : q = k
  · have := hne hq
    subst hq
    omega
  · have hap := ringRegions_apart hs.launch hq
    have hw := hs.indexW k
    omega

/-- The slot at W is none that holds a byte, so filling it changes nothing either ring holds (R233). -/
theorem ringContents_fill (b : Byte) : ringContents (s.fill k b) q = ringContents s q := by
  refine ringContents_congr rfl (ringW_fill hs b) (ringR_fill hs b) fun j hj =>
    slotByte_fill_ne hs (hs.index_lt q _) ?_ b
  rintro rfl
  exact index_after_ne (hs.indexW q) (hs.indexR q) hj

theorem ringW_publish : (s.publish k).ringW k = BitVec.ofNat 32 (nextIndex s.launch k (s.ringW k)) :=
  ringW_setRingW_same hs.canonical k _

theorem ringW_publish_ne (hne : q ≠ k) : (s.publish k).ringW q = s.ringW q := ringW_setRingW_ne hs.launch hne _

theorem slotByte_publish {n : Nat} (hn : n < ringCap s.launch q) : (s.publish k).slotByte q n = s.slotByte q n :=
  slotByte_setRingW hs hn _

theorem ringR_publish : (s.publish k).ringR q = s.ringR q := ringR_setRingW hs.launch k q _

/-- Publishing appends the byte in the slot at W (R233, R238). -/
theorem ringContents_publish (hfull : ringFull s.launch k (s.ringW k) (s.ringR k) = false) :
    ringContents (s.publish k) k = ringContents s k ++ [s.slotByte k (s.ringW k).toNat] := by
  have hslot : ∀ j, (s.publish k).slotByte k (((s.ringR k).toNat + j) % ringCap s.launch k) =
      s.slotByte k (((s.ringR k).toNat + j) % ringCap s.launch k) := fun j => slotByte_publish hs (hs.index_lt k _)
  calc ringContents (s.publish k) k
      = (List.range (ringCount s.launch k ((s.publish k).ringW k) ((s.publish k).ringR k))).map fun j =>
          (s.publish k).slotByte k ((((s.publish k).ringR k).toNat + j) % ringCap s.launch k) := rfl
    _ = (List.range (ringCount s.launch k (s.ringW k) (s.ringR k) + 1)).map fun j =>
          s.slotByte k (((s.ringR k).toNat + j) % ringCap s.launch k) := by
        rw [ringW_publish hs, ringR_publish hs, ringCount_nextIndex_write (hs.indexW k) (hs.indexR k) hs.launch hfull]
        exact List.map_congr_left fun j _ => hslot j
    _ = ringContents s k ++ [s.slotByte k (s.ringW k).toNat] := by
        rw [List.range_succ, List.map_append, List.map_singleton, index_after_count (hs.indexW k) (hs.indexR k)]
        rfl

theorem ringContents_publish_ne (hne : q ≠ k) : ringContents (s.publish k) q = ringContents s q :=
  ringContents_congr rfl (ringW_publish_ne hs hne) (ringR_publish hs) fun _ _ => slotByte_publish hs (hs.index_lt q _)

/-! ### A get: the oldest byte, then the index -/

theorem ringR_release : (s.release k).ringR k = BitVec.ofNat 32 (nextIndex s.launch k (s.ringR k)) :=
  ringR_setRingR_same hs.canonical k _

theorem ringW_release : (s.release k).ringW q = s.ringW q := ringW_setRingR hs.launch k q _

theorem ringR_release_ne (hne : q ≠ k) : (s.release k).ringR q = s.ringR q := ringR_setRingR_ne hs.launch hne _

theorem slotByte_release {n : Nat} (hn : n < ringCap s.launch q) : (s.release k).slotByte q n = s.slotByte q n :=
  slotByte_setRingR hs hn _

/-- Releasing takes the byte in the slot at R, the oldest (R234, R238). -/
theorem ringContents_release (hne : s.ringW k ≠ s.ringR k) :
    ringContents s k = s.slotByte k (s.ringR k).toNat :: ringContents (s.release k) k := by
  have hnext : ∀ j, (((s.release k).ringR k).toNat + j) % ringCap s.launch k =
      ((s.ringR k).toNat + (j + 1)) % ringCap s.launch k := fun j => by
    rw [ringR_release hs, (nextIndex_toNat hs.launch k _).1, nextIndex, Nat.mod_add_mod, Nat.add_assoc, Nat.add_comm 1]
  have hrest : ringContents (s.release k) k =
      (List.range (ringCount s.launch k (s.ringW k) ((s.release k).ringR k))).map fun j =>
        s.slotByte k (((s.ringR k).toNat + (j + 1)) % ringCap s.launch k) := by
    rw [← ringW_release (k := k) hs]
    refine List.map_congr_left fun j _ => ?_
    exact (congrArg ((s.release k).slotByte k) (hnext j)).trans (slotByte_release hs (hs.index_lt k _))
  calc ringContents s k
      = (List.range (ringCount s.launch k (s.ringW k) (s.ringR k))).map fun j =>
          s.slotByte k (((s.ringR k).toNat + j) % ringCap s.launch k) := rfl
    _ = s.slotByte k (s.ringR k).toNat :: ringContents (s.release k) k := by
        rw [ringCount_nextIndex_read (hs.indexW k) (hs.indexR k) hs.launch hne, ← ringR_release hs,
          List.range_succ_eq_map, List.map_cons, List.map_map, Nat.add_zero, Nat.mod_eq_of_lt (hs.indexR k), hrest]
        rfl

theorem ringContents_release_ne (hne : q ≠ k) : ringContents (s.release k) q = ringContents s q :=
  ringContents_congr rfl (ringW_release hs) (ringR_release_ne hs hne) fun _ _ => slotByte_release hs (hs.index_lt q _)

/-! ### The procedures of one atomic step -/

theorem putByte_of_not_full {b : Byte} (hfull : ringFull s.launch k (s.ringW k) (s.ringR k) = false) :
    putByte s k b = .ok ((s.fill k b).publish k) := by
  simp [putByte, hfull, writeRingSlot, hs.indexW k, Except.map, State.fill]

theorem getByte_eq : getByte s k = .ok (s.slotByte k (s.ringR k).toNat, s.release k) := by
  simp [getByte, readRingSlot, hs.indexR k, Except.map, State.slotByte]

/-- A put into a ring that is not full appends its byte (R238). -/
theorem ringContents_fill_publish (hfull : ringFull s.launch k (s.ringW k) (s.ringR k) = false) (b : Byte) :
    ringContents ((s.fill k b).publish k) k = ringContents s k ++ [b] := by
  have hfull' : ringFull s.launch k ((s.fill k b).ringW k) ((s.fill k b).ringR k) = false := by
    rwa [ringW_fill hs, ringR_fill hs]
  rw [ringContents_publish (hs.fill b) hfull', ringContents_fill hs, ringW_fill hs, slotByte_fill_same hs]

theorem ringContents_fill_publish_ne (hne : q ≠ k) (b : Byte) :
    ringContents ((s.fill k b).publish k) q = ringContents s q :=
  (ringContents_publish_ne (hs.fill b) hne).trans (ringContents_fill hs b)

end

end Sys2Proof.Machine
end

section
/-! SUPPORT. The commands that put a byte into a ring and those that take one (R233, R234, R260, R261): what each
micro-step of them does to the ring, said once for both commands of a kind, and what a sound snapshot tells of it. -/

namespace Sys2Proof.Machine

/-- The command puts byte `b` into ring `k`: TRYPUT, or PUTC into TX (R233, R260). -/
def PutsByte (i : Instr) (k : RingId) (b : Byte) : Prop := i = .tryput k b ∨ (k = .tx ∧ i = .putc b)

/-- The command takes a byte from ring `k`: TRYGET, or GETC from RX (R234, R261). -/
def TakesByte (i : Instr) (k : RingId) : Prop := i = .tryget k ∨ (k = .rx ∧ i = .getc)

/-- No put or get is between its snapshot and its index write. -/
def AtRest (s : State) : Prop := s.busy = true → s.current.ms ≠ .ms2 ∧ s.current.ms ≠ .ms3

/-- What a micro-step of a put of `b` into ring `k` does: the snapshot of R, the data slot, the index, or nothing to
the rings. -/
inductive PutStep (k : RingId) (b : Byte) (s : State) : State → Prop
  | snapshot (hms : s.current.ms = .ms1) :
      PutStep k b s { s with current := { s.current with rr := s.ringR k, ms := .ms2 } }
  | store (hms : s.current.ms = .ms2) (hfull : ringFull s.launch k (s.ringW k) s.current.rr = false) :
      PutStep k b s ((s.fill k b).goto .ms3)
  | publish {t : State} (hms : s.current.ms = .ms3) (hrings : SameRings (s.publish k) t) (hrest : AtRest t) :
      PutStep k b s t
  | quiet {t : State} (hms : s.current.ms ≠ .ms3) (hrings : SameRings s t) (hrest : AtRest t) : PutStep k b s t

/-- What a micro-step of command `i`, which takes a byte from ring `k`, does: the snapshot of W, the read of the data
slot, the index with the result, or nothing to the rings. -/
inductive TakeStep (i : Instr) (k : RingId) (s : State) : State → Prop
  | snapshot (hms : s.current.ms = .ms1) :
      TakeStep i k s { s with current := { s.current with ww := s.ringW k, ms := .ms2 } }
  | read (hms : s.current.ms = .ms2) (hne : s.current.ww ≠ s.ringR k) :
      TakeStep i k s { s with current := { s.current with b := s.slotByte k (s.ringR k).toNat, ms := .ms3 } }
  | release {t : State} (hms : s.current.ms = .ms3) (hrings : SameRings (s.release k) t) (hrest : AtRest t)
      (hres : t.res = if i = .getc then s.current.b.setWidth 32 else BitVec.ofNat 32 (256 + s.current.b.toNat)) :
      TakeStep i k s t
  | quiet {t : State} (hms : s.current.ms ≠ .ms3) (hrings : SameRings s t) (hrest : AtRest t) : TakeStep i k s t

section

variable {s : State} {k : RingId}

theorem SameRings.refl (s : State) : SameRings s s := ⟨rfl, rfl⟩

theorem atRest_of_not_busy (hb : s.busy = false) : AtRest s := fun h => by simp [hb] at h

theorem atRest_of_ms {m : MicroStep} (hms : s.current.ms = m) (h2 : m ≠ .ms2) (h3 : m ≠ .ms3) : AtRest s := fun _ =>
  ⟨hms ▸ h2, hms ▸ h3⟩

/-- A choice between two micro-steps, each led to under its condition. -/
theorem leads_ite {p : Prop} [Decidable p] {r q : Result} {Q : State → Prop} (hr : p → Leads r Q)
    (hq : ¬ p → Leads q Q) : Leads (if p then r else q) Q := by
  split
  · next hp => exact hr hp
  · next hp => exact hq hp

/-- A data slot that exists is written without a fault. -/
theorem leads_writeRingSlot {n : Nat} {b : Byte} {f : State → State} {Q : State → Prop}
    (h : Q (f { s with mem := memSet s.mem (ringSlotAddr s.launch k n) b })) :
    Leads (commit s (writeRingSlot s k n b >>= fun u => pure (f u))) Q := by
  unfold writeRingSlot
  split
  · exact leads_next h
  · exact leads_fault _

theorem leads_readRingSlot {n : Nat} {f : Byte → State} {Q : State → Prop} (h : Q (f (s.slotByte k n))) :
    Leads (commit s (readRingSlot s k n >>= fun c => pure (f c))) Q := by
  unfold readRingSlot
  split
  · exact leads_next h
  · exact leads_fault _

end

/-! ### Command by command -/

theorem execTryput_putStep (k : RingId) (b : Byte) (s : State) : Leads (execTryput k b s) (PutStep k b s) := by
  unfold execTryput
  cases hms : s.current.ms
  case ms1 =>
    exact .ite (leads_next (.quiet (by simp [hms]) ⟨rfl, rfl⟩ (atRest_of_ms hms nofun nofun)))
      (leads_next (.snapshot hms))
  case ms2 =>
    exact leads_ite (fun _ => leads_next (.quiet (by simp [hms]) ⟨rfl, rfl⟩ (atRest_of_not_busy rfl)))
      fun hfull => leads_writeRingSlot (.store hms (by simpa using hfull))
  case ms3 => exact leads_next (.publish hms ⟨rfl, rfl⟩ (atRest_of_not_busy rfl))
  all_goals exact leads_fault _

theorem execPutc_putStep (b : Byte) (s : State) : Leads (execPutc b s) (PutStep .tx b s) := by
  have hquiet : ∀ {m : MicroStep} {t : State}, s.current.ms = m → m ≠ .ms3 → SameRings s t → AtRest t →
      PutStep .tx b s t := fun hms h3 => .quiet (hms ▸ h3)
  have hraise : ∀ {m : MicroStep}, s.current.ms = m → m ≠ .ms2 → m ≠ .ms3 → ∀ c, PutStep .tx b s (s.raise c) :=
    fun hms h2 h3 _ => hquiet hms h3 ⟨rfl, rfl⟩ (atRest_of_ms hms h2 h3)
  unfold execPutc
  cases hms : s.current.ms
  case ms1 => exact .ite (leads_next (.snapshot hms)) (leads_next (hraise hms nofun nofun _))
  case ms2 =>
    exact leads_ite (fun _ => leads_next (hquiet hms nofun ⟨rfl, rfl⟩ (atRest_of_ms rfl nofun nofun)))
      fun hfull => leads_writeRingSlot (.store hms (by simpa using hfull))
  case ms3 => exact leads_next (.publish hms ⟨rfl, rfl⟩ (atRest_of_ms rfl nofun nofun))
  case ms4 =>
    refine leads_commit (hraise hms nofun nofun) (gives_devRead fun v => gives_ok ?_)
    exact hquiet hms nofun ⟨by simp, by simp⟩ (atRest_of_ms rfl nofun nofun)
  case ms5 =>
    refine leads_commit (hraise hms nofun nofun) (gives_bind (gives_devWrite (gives_ok ?_)))
    exact hquiet hms nofun ⟨s.regWrite_launch _ _, s.regWrite_mem _ _⟩ (atRest_of_not_busy rfl)
  all_goals exact leads_fault _

theorem execTryget_takeStep (k : RingId) (s : State) : Leads (execTryget k s) (TakeStep (.tryget k) k s) := by
  unfold execTryget
  cases hms : s.current.ms
  case ms1 =>
    exact .ite (leads_next (.quiet (by simp [hms]) ⟨rfl, rfl⟩ (atRest_of_ms hms nofun nofun)))
      (leads_next (.snapshot hms))
  case ms2 =>
    exact leads_ite (fun _ => leads_next (.quiet (by simp [hms]) ⟨rfl, rfl⟩ (atRest_of_not_busy rfl)))
      fun hne => leads_readRingSlot (.read hms hne)
  case ms3 => exact leads_next (.release hms ⟨rfl, rfl⟩ (atRest_of_not_busy rfl) (takenFlag_or_byte _))
  all_goals exact leads_fault _

theorem execGetc_takeStep (s : State) : Leads (execGetc s) (TakeStep .getc .rx s) := by
  unfold execGetc
  cases hms : s.current.ms
  case ms1 =>
    exact .ite (leads_next (.snapshot hms))
      (leads_next (.quiet (by simp [hms]) ⟨rfl, rfl⟩ (atRest_of_ms hms nofun nofun)))
  case ms2 =>
    exact leads_ite (fun _ => leads_next (.quiet (by simp [hms]) ⟨rfl, rfl⟩ (atRest_of_ms rfl nofun nofun)))
      fun hne => leads_readRingSlot (.read hms hne)
  case ms3 => exact leads_next (.release hms ⟨rfl, rfl⟩ (atRest_of_not_busy rfl) rfl)
  all_goals exact leads_fault _

theorem exec_putStep {i : Instr} {k : RingId} {b : Byte} (hi : PutsByte i k b) (s : State) :
    Leads (exec i s) (PutStep k b s) := by
  obtain rfl | ⟨rfl, rfl⟩ := hi
  · exact execTryput_putStep k b s
  · exact execPutc_putStep b s

theorem exec_takeStep {i : Instr} {k : RingId} (hi : TakesByte i k) (s : State) :
    Leads (exec i s) (TakeStep i k s) := by
  obtain rfl | ⟨rfl, rfl⟩ := hi
  · exact execTryget_takeStep k s
  · exact execGetc_takeStep s

/-! ### Sound snapshots -/

/-- The snapshots are sound when that of the latched command is, if it puts or takes a byte. -/
theorem snapshotsSound_iff {s : State} : snapshotsSound s = true ↔ (s.busy = true → ∀ i, decode s.current.word = .ok i →
    (∀ k b, PutsByte i k b → putSnapshotSound s k b = true) ∧ ∀ k, TakesByte i k → getSnapshotSound s k = true) := by
  unfold snapshotsSound
  cases s.busy
  case false => simp
  case true =>
    cases hd : decode s.current.word with
    | error e => simp
    | ok i => cases i <;> simp [PutsByte, TakesByte]

theorem putSnapshotSound_of_ms {s : State} {k : RingId} {b : Byte} (h : s.current.ms ≠ .ms2 ∧ s.current.ms ≠ .ms3) :
    putSnapshotSound s k b = true := by
  unfold putSnapshotSound
  split
  · next hms => exact absurd hms h.1
  · next hms => exact absurd hms h.2
  · rfl

theorem getSnapshotSound_of_ms {s : State} {k : RingId} (h : s.current.ms ≠ .ms2 ∧ s.current.ms ≠ .ms3) :
    getSnapshotSound s k = true := by
  unfold getSnapshotSound
  split
  · next hms => exact absurd hms h.1
  · next hms => exact absurd hms h.2
  · rfl

section

variable {s : State} {k : RingId} {b : Byte}

theorem putSnapshotSound_ms2 (hms : s.current.ms = .ms2) : putSnapshotSound s k b = true ↔
    s.current.rr.toNat < ringCap s.launch k ∧
      (ringContents s k).length ≤ ringCount s.launch k (s.ringW k) s.current.rr := by
  simp [putSnapshotSound, hms, length_ringContents]

theorem putSnapshotSound_ms3 (hms : s.current.ms = .ms3) : putSnapshotSound s k b = true ↔
    ringFull s.launch k (s.ringW k) (s.ringR k) = false ∧ s.slotByte k (s.ringW k).toNat = b := by
  simp [putSnapshotSound, hms, State.slotByte]

theorem getSnapshotSound_ms2 (hms : s.current.ms = .ms2) : getSnapshotSound s k = true ↔
    s.current.ww.toNat < ringCap s.launch k ∧
      ringCount s.launch k s.current.ww (s.ringR k) ≤ (ringContents s k).length := by
  simp [getSnapshotSound, hms, length_ringContents]

theorem getSnapshotSound_ms3 (hms : s.current.ms = .ms3) : getSnapshotSound s k = true ↔
    s.ringW k ≠ s.ringR k ∧ s.current.b = s.slotByte k (s.ringR k).toNat := by
  simp [getSnapshotSound, hms, State.slotByte]

end

/-! ### Puts and gets are first in, first out -/

/-- Only a put's ms3 changes what a ring holds: it appends the byte to its own (R238). -/
theorem PutStep.contents {k : RingId} {b : Byte} {s t : State} (h : PutStep k b s t) (hs : RingsSound s)
    (hsnap : putSnapshotSound s k b = true) :
    ringContents t k = (if s.current.ms = .ms3 then ringContents s k ++ [b] else ringContents s k) ∧
      ∀ q, q ≠ k → ringContents t q = ringContents s q := by
  cases h with
  | snapshot hms =>
    have hsame : SameRings s { s with current := { s.current with rr := s.ringR k, ms := .ms2 } } := ⟨rfl, rfl⟩
    rw [if_neg (by simp [hms])]
    exact ⟨hsame.contents k, fun q _ => hsame.contents q⟩
  | store hms _ =>
    have hsame : SameRings (s.fill k b) ((s.fill k b).goto .ms3) := ⟨rfl, rfl⟩
    have hkeep : ∀ q, ringContents ((s.fill k b).goto .ms3) q = ringContents s q := fun q =>
      (hsame.contents q).trans (ringContents_fill hs b)
    rw [if_neg (by simp [hms])]
    exact ⟨hkeep k, fun q _ => hkeep q⟩
  | publish hms hrings _ =>
    obtain ⟨hfull, hslot⟩ := (putSnapshotSound_ms3 hms).mp hsnap
    rw [if_pos hms, hrings.contents k, ringContents_publish hs hfull, hslot]
    exact ⟨rfl, fun q hq => (hrings.contents q).trans (ringContents_publish_ne hs hq)⟩
  | quiet hms hrings _ =>
    rw [if_neg hms]
    exact ⟨hrings.contents k, fun q _ => hrings.contents q⟩

/-- Before its ms3 a get leaves the rings. -/
theorem TakeStep.sameRings {i : Instr} {k : RingId} {s t : State} (h : TakeStep i k s t) (hms : s.current.ms ≠ .ms3) :
    SameRings s t := by
  cases h with
  | snapshot _ => exact ⟨rfl, rfl⟩
  | read _ _ => exact ⟨rfl, rfl⟩
  | release h3 _ _ _ => exact absurd h3 hms
  | quiet _ hrings _ => exact hrings

/-- A get's ms3 releases the slot at R and gives the byte taken (R234, R261). -/
theorem TakeStep.released {i : Instr} {k : RingId} {s t : State} (h : TakeStep i k s t) (hms : s.current.ms = .ms3) :
    SameRings (s.release k) t ∧
      t.res = if i = .getc then s.current.b.setWidth 32 else BitVec.ofNat 32 (256 + s.current.b.toNat) := by
  cases h with
  | snapshot h1 => simp [hms] at h1
  | read h2 _ => simp [hms] at h2
  | release _ hrings _ hres => exact ⟨hrings, hres⟩
  | quiet h3 _ _ => exact absurd hms h3

/-- Settles O28: the procedures on the two rings, then the commands with their snapshots. -/
theorem putAndGetAreFifo : Obligations.PutAndGetAreFifo := by
  unfold Obligations.PutAndGetAreFifo
  intro s k q b hm hr
  have hs : RingsSound s := ringsSound_iff.mpr ⟨hm, hr⟩
  refine ⟨fun hfull => ⟨ringContents_fill hs b, putByte_of_not_full hs hfull, fun t ht => ?_⟩, putByte_of_full,
    fun hne => ⟨_, _, getByte_eq hs, rfl, ringContents_release hs hne, ringContents_release_ne hs⟩,
    fun i t hsnap hb hi hexec => ?_⟩
  · obtain rfl : (s.fill k b).publish k = t := Except.ok.inj ((putByte_of_not_full hs hfull).symm.trans ht)
    exact ⟨ringContents_fill_publish hs hfull b, fun hq => ringContents_fill_publish_ne hs hq b⟩
  obtain ⟨hput, htake⟩ := snapshotsSound_iff.mp hsnap hb i hi
  refine ⟨fun hp => ?_, fun hg => ?_⟩
  · obtain ⟨hk, hq⟩ := (exec_putStep hp s t hexec).contents hs (hput k b hp)
    exact ⟨hk, hq q⟩
  · have hstep := exec_takeStep hg s t hexec
    by_cases hms : s.current.ms = .ms3
    · obtain ⟨hrings, hres⟩ := hstep.released hms
      obtain ⟨hne, hbyte⟩ := (getSnapshotSound_ms3 hms).mp (htake k hg)
      refine ⟨fun _ => ⟨?_, hres⟩, fun h3 => absurd hms h3, fun hq =>
        (hrings.contents q).trans (ringContents_release_ne hs hq)⟩
      rw [ringContents_release hs hne, hbyte, hrings.contents k]
    · have hrings := hstep.sameRings hms
      exact ⟨fun h3 => absurd h3 hms, fun _ => hrings.contents k, fun _ => hrings.contents q⟩

end Sys2Proof.Machine
end

section
/-! SUPPORT. What keeps an excluded command at its ms1 and a snapshot sound, whatever agent steps (R107, R231, R250,
R352): the channel's checks, and what the producer and the consumer of a ring see of it while others step. -/

namespace Sys2Proof.Machine

/-! ### Excluded commands -/

/-- With a channel and a command the exclusion asks one thing: an excluded command is at its ms1. -/
theorem driverExcluded_of_command {i : Instr} {s : State} (hchen : s.chen = true) (hb : s.busy = true)
    (hi : decode s.current.word = .ok i) :
    driverExcluded s = (decide (s.current.ms = .ms1) || !channelExcludes i) := by
  simp only [driverExcluded, hchen, hb, hi, Bool.not_true, Bool.false_or]
  cases i
  case tryput k b => cases k <;> rfl
  case tryget k => cases k <;> rfl
  all_goals rfl

theorem driverExcluded_iff {s : State} : driverExcluded s = true ↔
    (s.chen = true → s.busy = true → ∀ i, decode s.current.word = .ok i → ¬ PastChannelCheck i s) := by
  refine ⟨fun h hchen hb i hi => not_pastChannelCheck hchen hb hi h, fun h => ?_⟩
  cases hchen : s.chen
  case false => simp [driverExcluded, hchen]
  cases hb : s.busy
  case false => simp [driverExcluded, hb]
  cases hi : decode s.current.word with
  | error e => simp [driverExcluded, hi]
  | ok i =>
    have hpast : channelExcludes i = true → s.current.ms = .ms1 := by
      simpa [PastChannelCheck] using h hchen hb i hi
    rw [driverExcluded_of_command hchen hb hi]
    cases hex : channelExcludes i
    · simp
    · simp [hpast hex]

/-- A command that the channel excludes faults at its ms1 (R231, R250, R263). -/
theorem exec_of_channelExcludes {i : Instr} {s : State} (hi : channelExcludes i = true) (hchen : s.chen = true)
    (hms : s.current.ms = .ms1) : exec i s = .next (s.raise .ownershipViolation) := by
  cases i
  case tryput k b =>
    cases k
    case rx => simp [exec, execTryput, hms, hchen]
    case tx => cases hi
  case tryget k =>
    cases k
    case rx => cases hi
    case tx => simp [exec, execTryget, hms, hchen]
  case uinit => simp [exec, execUinit, hms, hchen]
  case chinit => simp [exec, execChinit, hms, hchen]
  case pputc b => simp [exec, execPputc, hms, hchen]
  case pgetc => simp [exec, execPgetc, hms, hchen]
  all_goals cases hi

/-- A micro-step completes its command or leaves the latched word (R56). -/
theorem HostStep.word {i : Instr} {s t : State} (h : HostStep i s t) :
    t.busy = false ∨ t.busy = s.busy ∧ t.chen = s.chen ∧ t.current.word = s.current.word := by
  cases h with
  | raise c => exact .inr ⟨rfl, rfl, rfl⟩
  | @run u _ access finish =>
    have hf := access.frame
    cases finish with
    | complete => exact .inl rfl
    | next c hword _ => exact .inr ⟨hf.busy, hf.chen, by rw [hword, hf.current]⟩
    | start q _ => exact .inr ⟨hf.busy, hf.chen, by rw [← hf.current]; rfl⟩

/-- A micro-step keeps the exclusion: past its ms1 no excluded command is, and at its ms1 it faults. -/
theorem exec_driverExcluded {i : Instr} {s : State} (hs : driverExcluded s = true) (hb : s.busy = true)
    (hi : decode s.current.word = .ok i) : Leads (exec i s) fun t => driverExcluded t = true := by
  intro t ht
  obtain hdone | ⟨-, hchen, hword⟩ := (exec_host i s t ht).word
  · simp [driverExcluded, hdone]
  refine driverExcluded_iff.mpr fun hct _ i' hi' hpast => ?_
  obtain rfl : i' = i := Except.ok.inj (hi'.symm.trans (hword ▸ hi))
  have hcs : s.chen = true := hchen ▸ hct
  have hms : s.current.ms = .ms1 := by
    simpa [PastChannelCheck, hpast.1] using driverExcluded_iff.mp hs hcs hb i' hi
  obtain rfl := Host.Outcome.next.inj (ht.symm.trans (exec_of_channelExcludes hpast.1 hcs hms))
  exact hpast.2 hms

/-- HOST's step, with the meaning of its command: `leads_hostStep` keeps of it what all commands share. -/
theorem leads_hostStep_exec {s : State} {Q : State → Prop} (hraise : ∀ c, Q (s.raise c))
    (hexec : ∀ i, s.busy = true → decode s.current.word = .ok i → Leads (exec i s) Q)
    (hissue : s.busy = false → Gives (issue s) Q) : Leads (hostStep s) Q := by
  cases hb : s.busy with
  | false =>
    rw [hostStep_of_not_busy hb]
    exact leads_commit hraise (hissue hb)
  | true =>
    cases hi : decode s.current.word with
    | ok i =>
      rw [hostStep_of_busy hb hi]
      exact hexec i hb hi
    | error e =>
      simp only [hostStep, hb, hostMicroStep, hi, if_true]
      exact leads_commit hraise (gives_error _)

/-! ### One step, by what it may do to a command and to the rings -/

/-- The step leaves the command, CHEN and the rings as they are. -/
structure LeavesRings (s t : State) : Prop where
  rings : SameRings s t
  busy : t.busy = s.busy
  chen : t.chen = s.chen
  current : t.current = s.current

/-- There is no command, or one at its ms1. -/
def NoCommandPastMs1 (s : State) : Prop := s.busy = false ∨ s.current.ms = .ms1

theorem leavesRings_raise (s : State) (c : FaultCode) : LeavesRings s (s.raise c) := ⟨⟨rfl, rfl⟩, rfl, rfl, rfl⟩

theorem leavesRings_takeMove (s : State) : LeavesRings s s.takeMove :=
  ⟨⟨s.takeMove_launch, s.takeMove_mem⟩, s.takeMove_busy, s.takeMove_chen, s.takeMove_current⟩

theorem SequencerStep.leavesRings {s t : State} (h : SequencerStep s t) : LeavesRings s t := by
  cases h with
  | goto q => exact ⟨⟨rfl, rfl⟩, rfl, rfl, rfl⟩
  | write r v q =>
    have hf := AccessFrame.regWrite s r v
    exact ⟨⟨hf.launch, s.regWrite_mem r v⟩, hf.busy, hf.chen, hf.current⟩
  | sleep p _ => exact ⟨⟨rfl, rfl⟩, rfl, rfl, rfl⟩

theorem leavesRings_urxStep (s : State) : LeavesRings s (urxStep s) := by
  obtain ⟨-, h⟩ | ⟨b, rest, stat, byte, -, h⟩ := urxStep_cases s <;> rw [h] <;> exact ⟨⟨rfl, rfl⟩, rfl, rfl, rfl⟩

/-- A wake leaves the rings, or is a reset, with no command (R205, R206). -/
theorem wakeStep_cases (s : State) : LeavesRings s (wakeStep s) ∨ NoCommandPastMs1 (wakeStep s) := by
  unfold wakeStep
  cases s.pstate with
  | run => exact .inl ⟨⟨rfl, rfl⟩, rfl, rfl, rfl⟩
  | stop =>
    obtain ⟨cr, cfgr, h⟩ := wakeFromStop_eq s
    refine .inl ?_
    simp only [h]
    exact ⟨⟨rfl, rfl⟩, rfl, rfl, rfl⟩
  | standby => exact .inr (.inl rfl)

/-- IRQE runs the tick handler, or with a channel the UART handler (R305, R307). -/
theorem gives_irqeStep_enabled {s : State} {Q : State → Prop} (hen : enabled .irqe s = true)
    (htick : Q (tickHandler s)) (huart : s.chen = true → Gives (uartHandler s) Q) : Gives (irqeStep s) Q := by
  unfold irqeStep
  split
  · exact gives_ok htick
  · next hno =>
    have hno' : s.tickIrq = false := by simpa using hno
    simp only [enabled, State.irqPending, hno', Bool.false_or, Bool.and_eq_true] at hen
    exact huart hen.2.2.1

/-- An enabled move leaves the rings, latches a command or resets, or is a HOST micro-step or a UART handler run. -/
theorem leads_perform {m : Move} {s : State} {Q : State → Prop} (hen : enabled m s = true)
    (hleave : ∀ t, LeavesRings s t → Q t) (hfresh : ∀ t, NoCommandPastMs1 t → Q t)
    (hexec : ∀ i, s.busy = true → decode s.current.word = .ok i → Leads (exec i s) Q)
    (huart : s.chen = true → Gives (uartHandler s) Q) : Leads (perform m s) Q := by
  have hraise : ∀ c, Q (s.raise c) := fun c => hleave _ (leavesRings_raise s c)
  have hplain : ∀ t, t.launch = s.launch → t.mem = s.mem → t.busy = s.busy → t.chen = s.chen →
      t.current = s.current → Q t := fun t hl hm hb hc hcur => hleave t ⟨⟨hl, hm⟩, hb, hc, hcur⟩
  cases m with
  | host =>
    exact leads_hostStep_exec hraise hexec fun _ =>
      gives_issue (fun _ => hplain s rfl rfl rfl rfl rfl) fun _ _ _ _ _ => hfresh _ (.inr rfl)
  | cseq => exact leads_commit hraise ((gives_cseqStep s).mono fun t h => hleave t h.leavesRings)
  | irqe => exact leads_commit hraise (gives_irqeStep_enabled hen (hplain _ rfl rfl rfl rfl rfl) huart)
  | urx => exact leads_next (hleave _ (leavesRings_urxStep s))
  | wake => exact leads_next ((wakeStep_cases s).elim (hleave _) (hfresh _))
  | portCmd c => exact leads_commit hraise (gives_cmdWrite fun _ _ _ => hfresh _ (.inr rfl))
  | osc | pll | clksw | tick | utx | portArg _ => exact leads_next (hplain _ rfl rfl rfl rfl rfl)

/-- A run of the UART handler is accesses within IRQE's rights (R276). -/
theorem gives_uartHandler (s : State) : Gives (uartHandler s) (HandlerRun s) := by
  unfold uartHandler
  exact gives_bind fun u hu => gives_txRule.mono fun t ht => Relation.ReflTransGen.trans (gives_rxRule u hu) ht

/-! ### What each end of a ring sees -/

/-- From `s` to `t` the producer of ring `k` sees its index and its slot as they were, and bytes taken at most, the
oldest first (R107). -/
structure ProducerView (k : RingId) (s t : State) : Prop where
  launch : t.launch = s.launch
  indexW : t.ringW k = s.ringW k
  slotW : t.slotByte k (s.ringW k).toNat = s.slotByte k (s.ringW k).toNat
  contents : ringContents t k <:+ ringContents s k

/-- From `s` to `t` the consumer of ring `k` sees its index as it was, and bytes appended at most (R107). -/
structure ConsumerView (k : RingId) (s t : State) : Prop where
  launch : t.launch = s.launch
  indexR : t.ringR k = s.ringR k
  contents : ringContents s k <+: ringContents t k

theorem SameRings.producerView {s t : State} (h : SameRings s t) (k : RingId) : ProducerView k s t :=
  ⟨h.launch, h.ringW k, h.slotByte k _, by rw [h.contents k]⟩

theorem SameRings.consumerView {s t : State} (h : SameRings s t) (k : RingId) : ConsumerView k s t :=
  ⟨h.launch, h.ringR k, by rw [h.contents k]⟩

/-- What HOST sees of the rings that a handler run leaves: it is TX's producer and RX's consumer (R231). -/
structure HostView (s t : State) : Prop where
  tx : ProducerView .tx s t
  rx : ConsumerView .rx s t

theorem SameRings.hostView {s t : State} (h : SameRings s t) : HostView s t := ⟨h.producerView .tx, h.consumerView .rx⟩

theorem HostView.trans {s t u : State} (h : HostView s t) (h' : HostView t u) : HostView s u where
  tx :=
    { launch := h'.tx.launch.trans h.tx.launch
      indexW := h'.tx.indexW.trans h.tx.indexW
      slotW := h.tx.indexW ▸ h'.tx.slotW |>.trans h.tx.slotW
      contents := h'.tx.contents.trans h.tx.contents }
  rx :=
    { launch := h'.rx.launch.trans h.rx.launch
      indexR := h'.rx.indexR.trans h.rx.indexR
      contents := h.rx.contents.trans h'.rx.contents }

/-! ### The exclusion -/

theorem LeavesRings.driverExcluded {s t : State} (h : LeavesRings s t) (hs : driverExcluded s = true) :
    driverExcluded t = true := by
  simpa [Machine.driverExcluded, h.chen, h.busy, h.current] using hs

theorem NoCommandPastMs1.driverExcluded {s : State} (h : NoCommandPastMs1 s) : driverExcluded s = true := by
  obtain hb | hms := h
  · simp [Machine.driverExcluded, hb]
  · simp [Machine.driverExcluded, hms]

/-- Every enabled move's step keeps the exclusion. -/
theorem perform_driverExcluded {m : Move} {s : State} (hs : driverExcluded s = true) (hen : enabled m s = true) :
    Leads (perform m s) fun t => driverExcluded t = true := by
  refine leads_perform hen (fun t h => h.driverExcluded hs) (fun t h => h.driverExcluded)
    (fun i => exec_driverExcluded hs) fun _ t ht => ?_
  have hf := (gives_uartHandler s t ht).frame
  simpa [driverExcluded, hf.chen, hf.busy, hf.current] using hs

/-! ### What the handler leaves HOST -/

theorem gives_putByte_rx_hostView {s : State} (hs : RingsSound s) (b : Byte) :
    Gives (putByte s .rx b) (HostView s) := by
  cases hfull : ringFull s.launch .rx (s.ringW .rx) (s.ringR .rx) with
  | true =>
    rw [putByte_of_full hfull]
    exact gives_ok (SameRings.refl s).hostView
  | false =>
    rw [putByte_of_not_full hs hfull]
    refine gives_ok ⟨⟨rfl, ?_, ?_, ?_⟩, ⟨rfl, ?_, ?_⟩⟩
    · rw [ringW_publish_ne (hs.fill b) (by decide), ringW_fill hs]
    · rw [slotByte_publish (hs.fill b) (hs.indexW .tx), slotByte_fill_ne (k := .rx) hs (hs.indexW .tx) nofun]
    · rw [ringContents_fill_publish_ne hs (by decide)]
    · rw [ringR_publish (hs.fill b), ringR_fill hs]
    · rw [ringContents_fill_publish hs hfull]
      exact List.prefix_append _ _

theorem gives_rxRule_hostView {s : State} (hs : RingsSound s) : Gives (rxRule s) (HostView s) := by
  have hread : SameRings s (s.afterRead .uartData) := ⟨s.afterRead_launch _, s.afterRead_mem _⟩
  unfold rxRule
  exact .ite (gives_devRead fun v => (gives_putByte_rx_hostView (hread.ringsSound hs) _).mono fun t ht =>
    hread.hostView.trans ht) (gives_ok (SameRings.refl s).hostView)

theorem hostView_release_tx {s : State} (hs : RingsSound s) (hne : s.ringW .tx ≠ s.ringR .tx) :
    HostView s (s.release .tx) := by
  refine ⟨⟨rfl, ringW_release hs, slotByte_release hs (hs.indexW .tx), ?_⟩, ⟨rfl, ringR_release_ne hs (by decide), ?_⟩⟩
  · rw [ringContents_release hs hne]
    exact List.suffix_cons _ _
  · rw [ringContents_release_ne hs (by decide)]

theorem sameRings_regWrite (s : State) (r : Slot) (v : Word) : SameRings s (s.regWrite r v) :=
  ⟨s.regWrite_launch r v, s.regWrite_mem r v⟩

theorem gives_txRule_hostView {s : State} (hs : RingsSound s) : Gives (txRule s) (HostView s) := by
  unfold txRule
  refine .ite ?_ (gives_ok (SameRings.refl s).hostView)
  split
  · next hne =>
    rw [getByte_eq hs]
    exact gives_devWrite ((hostView_release_tx hs hne).trans (sameRings_regWrite _ _ _).hostView)
  · exact gives_devWrite (sameRings_regWrite _ _ _).hostView

/-- A handler run takes from TX and appends to RX at most (R107, R231). -/
theorem gives_uartHandler_hostView {s : State} (hs : RingsSound s) : Gives (uartHandler s) (HostView s) := by
  unfold uartHandler
  exact gives_bind fun u hu => (gives_txRule_hostView ((gives_rxRule u hu).ringsSound hs)).mono fun t ht =>
    (gives_rxRule_hostView hs u hu).trans ht

/-! ### Snapshots stay sound -/

theorem ringFull_eq_false_iff {s : State} (hs : RingsSound s) (k : RingId) :
    ringFull s.launch k (s.ringW k) (s.ringR k) = false ↔ (ringContents s k).length + 1 < ringCap s.launch k := by
  have hlt := ringCount_lt (hs.indexW k) (hs.indexR k)
  rw [← Bool.not_eq_true, ringFull_iff_count (hs.indexW k) (hs.indexR k), length_ringContents]
  omega

/-- The oldest byte of a ring that holds one is in the slot at R. -/
theorem head_ringContents {s : State} (hs : RingsSound s) (k : RingId) (c : Byte) :
    (ringContents s k).head? = some c ↔ s.ringW k ≠ s.ringR k ∧ c = s.slotByte k (s.ringR k).toNat := by
  by_cases hne : s.ringW k = s.ringR k
  · have hempty : ringContents s k = [] := List.eq_nil_of_length_eq_zero <|
      (length_ringContents s k).trans ((ringCount_eq_zero (hs.indexW k) (hs.indexR k)).mpr hne)
    simp [hempty, hne]
  · rw [ringContents_release hs hne]
    simp [hne, eq_comm]

/-- A put's snapshot stays sound while others take from its ring at most. -/
theorem ProducerView.putSnapshotSound {k : RingId} {b : Byte} {s t : State} (h : ProducerView k s t)
    (hc : t.current = s.current) (hs : RingsSound s) (ht : RingsSound t) (hsnap : putSnapshotSound s k b = true) :
    putSnapshotSound t k b = true := by
  have hlen := h.contents.length_le
  cases hms : s.current.ms
  case ms2 =>
    obtain ⟨hrr, hle⟩ := (putSnapshotSound_ms2 hms).mp hsnap
    rw [putSnapshotSound_ms2 (hc ▸ hms), h.launch, h.indexW, hc]
    exact ⟨hrr, hlen.trans hle⟩
  case ms3 =>
    obtain ⟨hfull, hslot⟩ := (putSnapshotSound_ms3 hms).mp hsnap
    rw [ringFull_eq_false_iff hs] at hfull
    rw [putSnapshotSound_ms3 (hc ▸ hms), ringFull_eq_false_iff ht, h.launch, h.indexW, h.slotW]
    exact ⟨by omega, hslot⟩
  all_goals exact putSnapshotSound_of_ms (by simp [hc, hms])

/-- A get's snapshot stays sound while others append to its ring at most. -/
theorem ConsumerView.getSnapshotSound {k : RingId} {s t : State} (h : ConsumerView k s t)
    (hc : t.current = s.current) (hs : RingsSound s) (ht : RingsSound t) (hsnap : getSnapshotSound s k = true) :
    getSnapshotSound t k = true := by
  cases hms : s.current.ms
  case ms2 =>
    obtain ⟨hww, hle⟩ := (getSnapshotSound_ms2 hms).mp hsnap
    rw [getSnapshotSound_ms2 (hc ▸ hms), h.launch, h.indexR, hc]
    exact ⟨hww, hle.trans h.contents.length_le⟩
  case ms3 =>
    rw [getSnapshotSound_ms3 hms, ← head_ringContents hs] at hsnap
    rw [getSnapshotSound_ms3 (hc ▸ hms), ← head_ringContents ht, hc]
    obtain ⟨rest, hrest⟩ := h.contents
    rw [← hrest, List.head?_append, hsnap]
    rfl
  all_goals exact getSnapshotSound_of_ms (by simp [hc, hms])

/-- A put's own micro-steps: the snapshot is taken, then the slot filled, which the snapshot shows free. -/
theorem PutStep.putSnapshotSound {k : RingId} {b : Byte} {s t : State} (h : PutStep k b s t) (hs : RingsSound s)
    (hb : t.busy = true) (hsnap : putSnapshotSound s k b = true) : putSnapshotSound t k b = true := by
  cases h with
  | snapshot _ => exact (putSnapshotSound_ms2 rfl).mpr ⟨hs.indexR k, (length_ringContents s k).le⟩
  | store hms hfull =>
    obtain ⟨hrr, hle⟩ := (putSnapshotSound_ms2 hms).mp hsnap
    have hroom := mt (ringFull_iff_count (hs.indexW k) hrr).mpr (Bool.eq_false_iff.mp hfull)
    have hlt := ringCount_lt (hs.indexW k) hrr
    refine (putSnapshotSound_ms3 rfl).mpr ⟨?_, ?_⟩
    · change ringFull s.launch k ((s.fill k b).ringW k) ((s.fill k b).ringR k) = false
      rw [ringW_fill hs, ringR_fill hs, ringFull_eq_false_iff hs]
      omega
    · change (s.fill k b).slotByte k ((s.fill k b).ringW k).toNat = b
      rw [ringW_fill hs, slotByte_fill_same hs]
  | publish _ _ hrest => exact putSnapshotSound_of_ms (hrest hb)
  | quiet _ _ hrest => exact putSnapshotSound_of_ms (hrest hb)

/-- A get's own micro-steps: the snapshot is taken, then the oldest byte read, which the snapshot shows present. -/
theorem TakeStep.getSnapshotSound {i : Instr} {k : RingId} {s t : State} (h : TakeStep i k s t) (hs : RingsSound s)
    (hb : t.busy = true) (hsnap : getSnapshotSound s k = true) : getSnapshotSound t k = true := by
  cases h with
  | snapshot _ => exact (getSnapshotSound_ms2 rfl).mpr ⟨hs.indexW k, (length_ringContents s k).ge⟩
  | read hms hne =>
    obtain ⟨hww, hle⟩ := (getSnapshotSound_ms2 hms).mp hsnap
    have hpos := mt (ringCount_eq_zero hww (hs.indexR k)).mp hne
    refine (getSnapshotSound_ms3 rfl).mpr ⟨fun hempty => ?_, rfl⟩
    have hzero := (ringCount_eq_zero (hs.indexW k) (hs.indexR k)).mpr hempty
    rw [length_ringContents] at hle
    omega
  | release _ _ hrest _ => exact getSnapshotSound_of_ms (hrest hb)
  | quiet _ _ hrest => exact getSnapshotSound_of_ms (hrest hb)

theorem NoCommandPastMs1.snapshotsSound {s : State} (h : NoCommandPastMs1 s) : snapshotsSound s = true := by
  refine snapshotsSound_iff.mpr fun hb i _ => ?_
  have hms : s.current.ms = .ms1 := h.resolve_left (by simp [hb])
  exact ⟨fun k b _ => putSnapshotSound_of_ms (by simp [hms]), fun k _ => getSnapshotSound_of_ms (by simp [hms])⟩

/-- With the command left, the snapshots stay sound when those of its ring do. -/
theorem snapshotsSound_of_same {s t : State} (hsnap : snapshotsSound s = true) (hb : t.busy = s.busy)
    (hc : t.current = s.current)
    (hput : ∀ i k b, s.busy = true → decode s.current.word = .ok i → PutsByte i k b →
      putSnapshotSound s k b = true → putSnapshotSound t k b = true)
    (htake : ∀ i k, s.busy = true → decode s.current.word = .ok i → TakesByte i k →
      getSnapshotSound s k = true → getSnapshotSound t k = true) : snapshotsSound t = true := by
  refine snapshotsSound_iff.mpr fun hbt i hit => ?_
  have hbs : s.busy = true := hb ▸ hbt
  have hi : decode s.current.word = .ok i := hc ▸ hit
  obtain ⟨hp, hg⟩ := snapshotsSound_iff.mp hsnap hbs i hi
  exact ⟨fun k b h => hput i k b hbs hi h (hp k b h), fun k h => htake i k hbs hi h (hg k h)⟩

/-- The rings are sound, no excluded command is past its ms1, and the snapshot of the put or get under way is sound. -/
structure SnapshotsKept (s : State) : Prop where
  rings : RingsSound s
  excluded : driverExcluded s = true
  snapshots : snapshotsSound s = true

theorem LeavesRings.snapshotsKept {s t : State} (h : LeavesRings s t) (hs : SnapshotsKept s) : SnapshotsKept t := by
  have ht := h.rings.ringsSound hs.rings
  exact ⟨ht, h.driverExcluded hs.excluded, snapshotsSound_of_same hs.snapshots h.busy h.current
    (fun _ k _ _ _ _ => (h.rings.producerView k).putSnapshotSound h.current hs.rings ht)
    (fun _ k _ _ _ => (h.rings.consumerView k).getSnapshotSound h.current hs.rings ht)⟩

/-- A micro-step of the latched command. -/
theorem exec_snapshotsSound {i : Instr} {s : State} (hs : SnapshotsKept s) (hb : s.busy = true)
    (hi : decode s.current.word = .ok i) : Leads (exec i s) fun t => snapshotsSound t = true := by
  intro t ht
  obtain ⟨hput, htake⟩ := snapshotsSound_iff.mp hs.snapshots hb i hi
  refine snapshotsSound_iff.mpr fun hbt i' hi' => ?_
  obtain hdone | ⟨-, -, hword⟩ := (exec_host i s t ht).word
  · simp [hdone] at hbt
  obtain rfl : i' = i := Except.ok.inj (hi'.symm.trans (hword ▸ hi))
  exact ⟨fun k b hp => (exec_putStep hp s t ht).putSnapshotSound hs.rings hbt (hput k b hp),
    fun k hg => (exec_takeStep hg s t ht).getSnapshotSound hs.rings hbt (htake k hg)⟩

/-- A handler run, which finds a channel: a put into RX and a get from TX are at their ms1 then, and the other rings'
are HOST's to see (R231). -/
theorem uartHandler_snapshotsSound {s : State} (hs : SnapshotsKept s) (hchen : s.chen = true) :
    Gives (uartHandler s) fun t => snapshotsSound t = true := by
  intro t ht
  have hrun := gives_uartHandler s t ht
  have hview := gives_uartHandler_hostView hs.rings t ht
  have hc := hrun.frame.current
  have hsound := hrun.ringsSound hs.rings
  have hms1 : ∀ i, s.busy = true → decode s.current.word = .ok i → channelExcludes i = true →
      t.current.ms ≠ .ms2 ∧ t.current.ms ≠ .ms3 := fun i hb hi hex => by
    have hms : s.current.ms = .ms1 := by
      simpa [PastChannelCheck, hex] using driverExcluded_iff.mp hs.excluded hchen hb i hi
    simp [hc, hms]
  refine snapshotsSound_of_same hs.snapshots hrun.frame.busy hc (fun i k b hb hi hp => ?_) fun i k hb hi hg => ?_
  · cases k
    case tx => exact hview.tx.putSnapshotSound hc hs.rings hsound
    case rx =>
      obtain rfl | ⟨hk, -⟩ := hp
      · exact fun _ => putSnapshotSound_of_ms (hms1 _ hb hi rfl)
      · cases hk
  · cases k
    case rx => exact hview.rx.getSnapshotSound hc hs.rings hsound
    case tx =>
      obtain rfl | ⟨hk, -⟩ := hg
      · exact fun _ => getSnapshotSound_of_ms (hms1 _ hb hi rfl)
      · cases hk

/-- Every enabled move's step keeps the snapshots sound. -/
theorem perform_snapshotsKept {m : Move} {s : State} (hs : SnapshotsKept s) (hen : enabled m s = true) :
    Leads (perform m s) SnapshotsKept := by
  have hsnap : Leads (perform m s) fun t => snapshotsSound t = true :=
    leads_perform hen (fun t h => (h.snapshotsKept hs).snapshots) (fun t h => h.snapshotsSound)
      (fun i => exec_snapshotsSound hs) (uartHandler_snapshotsSound hs)
  exact fun t ht =>
    ⟨perform_ringsSound m hs.rings t ht, perform_driverExcluded hs.excluded hen t ht, hsnap t ht⟩

/-- Settles O39: the exclusion alone is kept, and with it and sound rings the snapshots are. -/
theorem channelExclusionIsKept : Obligations.ChannelExclusionIsKept := by
  unfold Obligations.ChannelExclusionIsKept
  intro s t hex h
  refine ⟨?_, fun hm hr hsnap => ?_⟩
  · exact step_keeps (P := fun u => driverExcluded u = true) (fun u c => (leavesRings_raise u c).driverExcluded)
      (fun u => (leavesRings_takeMove u).driverExcluded) (fun m u _ hu hen => perform_driverExcluded hu hen _) hex h
  · have ht : SnapshotsKept t := step_keeps (fun u c => (leavesRings_raise u c).snapshotsKept)
      (fun u => (leavesRings_takeMove u).snapshotsKept) (fun m u _ hu hen => perform_snapshotsKept hu hen _)
      ⟨ringsSound_iff.mpr ⟨hm, hr⟩, hex, hsnap⟩ h
    exact ht.snapshots

end Sys2Proof.Machine
end

section
/-! SUPPORT. What a step does to the channel, said once (R231, R250, R257, R258): the UART slots that CSEQ never writes,
and CHEN and UART_CTRL under every command of HOST. -/

namespace Sys2Proof.Machine

/-! ### The sequencer -/

/-- CSEQ writes none of HOST's slots but PENR (R36, R201). -/
theorem gives_cseqStep_stored {q : Slot} (hq : q.notHosts = false) (hpenr : q ≠ .penr) (s : State) :
    Gives (cseqStep s) fun t => t.stored q = s.stored q := by
  have hwrite : ∀ {r : Slot} {v : Word} {p : SeqState}, (r.notHosts = true ∨ r = .penr) →
      Gives (seqWrite s r v p) fun t => t.stored q = s.stored q := fun {r v p} hr => by
    refine gives_map (gives_devWrite (stored_regWrite_ne v ?_ ?_))
    · rintro rfl
      exact hr.elim (fun h => by simp [hq] at h) hpenr
    · rintro ⟨rfl, -⟩
      exact hr.elim nofun nofun
  have hwait : ∀ (p : Prop) [Decidable p] (x : SeqState),
      State.stored (if p then { s with seqState := x } else s) q = s.stored q := fun p _ x => by split <;> rfl
  unfold cseqStep
  cases s.seqState
  case idle => exact gives_ok rfl
  case s2XoscWait => exact gives_ok (hwait _ _)
  case s3PllWait => exact gives_ok (hwait _ _)
  case s5SwitchWait => exact gives_ok (hwait _ _)
  case p4Wfe => exact gives_ok rfl
  case p1PwrEn => exact hwrite (.inr rfl)
  case s4PrescInter =>
    change Gives (seqS4PrescInter s) _
    unfold seqS4PrescInter
    cases s.launch.variant.prescInter with
    | some p => exact hwrite (.inl rfl)
    | none => exact gives_ok rfl
  all_goals exact hwrite (.inl rfl)

/-! ### CHEN and UART_CTRL in a micro-step -/

/-- CHEN and UART_CTRL are the same in both states. -/
structure SameChannel (s t : State) : Prop where
  chen : t.chen = s.chen
  uartCtrl : t.uartCtrl = s.uartCtrl

theorem SameChannel.refl (s : State) : SameChannel s s := ⟨rfl, rfl⟩

theorem SameChannel.ite {s t u : State} {p : Prop} [Decidable p] (ht : SameChannel s t) (hu : SameChannel s u) :
    SameChannel s (if p then t else u) := by
  split
  · exact ht
  · exact hu

/-- The commands that write UART_CTRL as a device write, without the check of CHEN that a HOST write makes (R251, R257,
R260). -/
def writesUartCtrl : Instr → Bool
  | .uinit => true
  | .chinit => true
  | .putc _ => true
  | _ => false

/-- From `s` to `t` command `i` leaves CHEN, and under a channel UART_CTRL too unless it is one that writes it. -/
structure ChannelKept (i : Instr) (s t : State) : Prop where
  chen : t.chen = s.chen
  uartCtrl : s.chen = true → writesUartCtrl i = false → t.uartCtrl = s.uartCtrl

section

variable {i : Instr} {s : State}

theorem SameChannel.kept {t : State} (h : SameChannel s t) : ChannelKept i s t := ⟨h.chen, fun _ _ => h.uartCtrl⟩

/-- A write of a slot, which is UART_CTRL only without a channel or in a command that writes it. -/
theorem kept_regWrite {r : Slot} {v : Word} {t : State} (ht : SameChannel (s.regWrite r v) t)
    (hr : r = .uartCtrl → s.chen = true → writesUartCtrl i = true) : ChannelKept i s t := by
  refine ⟨ht.chen.trans (s.regWrite_chen r v), fun hchen hi => ht.uartCtrl.trans ?_⟩
  exact stored_regWrite_ne (q := .uartCtrl) v (fun h => by simp [hr h.symm hchen] at hi) nofun

/-! ### The shapes of a micro-step -/

theorem kept_next {t : State} (ht : SameChannel s t) : Leads (.next t) (ChannelKept i s) := leads_next ht.kept

theorem kept_commit {x : Except Stop State} (hx : Gives x (ChannelKept i s)) :
    Leads (commit s x) (ChannelKept i s) := leads_commit (fun _ => ⟨rfl, fun _ _ => rfl⟩) hx

theorem kept_raise (c : FaultCode) : Leads (commit s (.error (.raise c))) (ChannelKept i s) :=
  kept_commit (gives_error _)

theorem sameChannel_afterRead (r : Slot) {t : State} (ht : SameChannel (s.afterRead r) t) : SameChannel s t :=
  ⟨ht.chen.trans (s.afterRead_chen r), ht.uartCtrl.trans (s.afterRead_uartCtrl r)⟩

theorem kept_hostRead {n : Nat} {f : Word × State → State} (hf : ∀ v u, SameChannel u (f (v, u))) :
    Leads (commit s (hostRead s n >>= fun p => pure (f p))) (ChannelKept i s) :=
  kept_commit (gives_hostRead fun v r => gives_ok (sameChannel_afterRead r (hf v _)).kept)

theorem kept_devRead {r : Slot} {f : Word × State → State} (hf : ∀ v u, SameChannel u (f (v, u))) :
    Leads (commit s (devRead s r >>= fun p => pure (f p))) (ChannelKept i s) :=
  kept_commit (gives_devRead fun v => gives_ok (sameChannel_afterRead r (hf v _)).kept)

/-- A HOST write finds no channel where it writes a UART slot (R59). -/
theorem kept_hostWrite {n : Nat} {v : Word} {f : State → State} (hf : ∀ u, SameChannel u (f u)) :
    Leads (commit s (hostWrite s n v >>= fun u => pure (f u))) (ChannelKept i s) := by
  refine kept_commit (gives_bind fun u hu => gives_ok ?_)
  obtain ⟨r, -, -, huart, hw⟩ := hostWrite_eq_ok.mp hu
  obtain ⟨-, rfl⟩ := devWrite_eq_ok.mp hw
  refine kept_regWrite (hf _) ?_
  rintro rfl hchen
  simp [hchen, Slot.isUart] at huart

theorem kept_devWrite {r : Slot} {v : Word} {f : State → State} (hr : r = .uartCtrl → writesUartCtrl i = true)
    (hf : ∀ u, SameChannel u (f u)) : Leads (commit s (devWrite s r v >>= fun u => pure (f u))) (ChannelKept i s) :=
  kept_commit (gives_bind (gives_devWrite (gives_ok (kept_regWrite (hf _) fun h _ => hr h))))

theorem kept_writeRingSlot {k : RingId} {n : Nat} {b : Byte} {f : State → State} (hf : ∀ u, SameChannel u (f u)) :
    Leads (commit s (writeRingSlot s k n b >>= fun u => pure (f u))) (ChannelKept i s) :=
  leads_writeRingSlot (SameChannel.kept ⟨(hf _).chen, (hf _).uartCtrl⟩)

theorem kept_readRingSlot {k : RingId} {n : Nat} {f : Byte → State} (hf : ∀ b, SameChannel s (f b)) :
    Leads (commit s (readRingSlot s k n >>= fun b => pure (f b))) (ChannelKept i s) :=
  leads_readRingSlot (hf _).kept

end

/-! ### Command by command -/

theorem execRd_kept (slot : Nat) (s : State) : Leads (execRd slot s) (ChannelKept (.rd slot) s) := by
  unfold execRd
  cases s.current.ms
  case ms1 => exact kept_hostRead fun _ _ => ⟨rfl, rfl⟩
  all_goals exact leads_fault _

theorem execWr_kept (slot : Nat) (s : State) : Leads (execWr slot s) (ChannelKept (.wr slot) s) := by
  unfold execWr
  cases s.current.ms
  case ms1 => exact kept_hostWrite fun _ => ⟨rfl, rfl⟩
  all_goals exact leads_fault _

theorem execRdbit_kept (slot bit : Nat) (s : State) :
    Leads (execRdbit slot bit s) (ChannelKept (.rdbit slot bit) s) := by
  unfold execRdbit
  cases s.current.ms
  case ms1 => exact kept_hostRead fun _ _ => ⟨rfl, rfl⟩
  all_goals exact leads_fault _

theorem execWrbit_kept (slot bit : Nat) (v : Bool) (s : State) :
    Leads (execWrbit slot bit v s) (ChannelKept (.wrbit slot bit v) s) := by
  unfold execWrbit
  cases s.current.ms
  case ms1 => exact kept_hostRead fun _ _ => ⟨rfl, rfl⟩
  case ms2 => exact kept_hostWrite fun _ => ⟨rfl, rfl⟩
  all_goals exact leads_fault _

theorem execPoll_kept (slot bit : Nat) (v : Bool) (s : State) :
    Leads (execPoll slot bit v s) (ChannelKept (.poll slot bit v) s) := by
  unfold execPoll
  cases s.current.ms
  case ms1 => exact kept_hostRead fun _ u => .ite ⟨rfl, rfl⟩ (.refl u)
  all_goals exact leads_fault _

theorem execTryput_kept (k : RingId) (b : Byte) (s : State) :
    Leads (execTryput k b s) (ChannelKept (.tryput k b) s) := by
  unfold execTryput
  cases s.current.ms
  case ms1 => exact .ite (kept_raise _) (kept_next ⟨rfl, rfl⟩)
  case ms2 => exact .ite (kept_next ⟨rfl, rfl⟩) (kept_writeRingSlot fun _ => ⟨rfl, rfl⟩)
  case ms3 => exact kept_next ⟨rfl, rfl⟩
  all_goals exact leads_fault _

theorem execTryget_kept (k : RingId) (s : State) : Leads (execTryget k s) (ChannelKept (.tryget k) s) := by
  unfold execTryget
  cases s.current.ms
  case ms1 => exact .ite (kept_raise _) (kept_next ⟨rfl, rfl⟩)
  case ms2 => exact .ite (kept_next ⟨rfl, rfl⟩) (kept_readRingSlot fun _ => ⟨rfl, rfl⟩)
  case ms3 => exact kept_next ⟨rfl, rfl⟩
  all_goals exact leads_fault _

theorem execIsfull_kept (k : RingId) (s : State) : Leads (execIsfull k s) (ChannelKept (.isfull k) s) := by
  unfold execIsfull
  cases s.current.ms
  case ms1 => exact kept_next ⟨rfl, rfl⟩
  case ms2 => exact kept_next ⟨rfl, rfl⟩
  all_goals exact leads_fault _

theorem execIsempty_kept (k : RingId) (s : State) : Leads (execIsempty k s) (ChannelKept (.isempty k) s) := by
  unfold execIsempty
  cases s.current.ms
  case ms1 => exact kept_next ⟨rfl, rfl⟩
  case ms2 => exact kept_next ⟨rfl, rfl⟩
  all_goals exact leads_fault _

theorem execCount_kept (k : RingId) (s : State) : Leads (execCount k s) (ChannelKept (.count k) s) := by
  unfold execCount
  cases s.current.ms
  case ms1 => exact kept_next ⟨rfl, rfl⟩
  case ms2 => exact kept_next ⟨rfl, rfl⟩
  all_goals exact leads_fault _

theorem execUinit_kept (s : State) : Leads (execUinit s) (ChannelKept .uinit s) := by
  unfold execUinit
  cases s.current.ms
  case ms1 => exact .ite (kept_raise _) (kept_devRead fun _ _ => ⟨rfl, rfl⟩)
  case ms2 => exact kept_devWrite nofun fun _ => ⟨rfl, rfl⟩
  case ms3 => exact kept_devWrite nofun fun _ => ⟨rfl, rfl⟩
  case ms4 => exact kept_devWrite (fun _ => rfl) fun _ => ⟨rfl, rfl⟩
  all_goals exact leads_fault _

theorem execPputc_kept (b : Byte) (s : State) : Leads (execPputc b s) (ChannelKept (.pputc b) s) := by
  unfold execPputc
  cases s.current.ms
  case ms1 => exact .ite (kept_raise _) (kept_devRead fun _ u => .ite ⟨rfl, rfl⟩ (.refl u))
  case ms2 => exact kept_devWrite nofun fun _ => ⟨rfl, rfl⟩
  all_goals exact leads_fault _

theorem execPgetc_kept (s : State) : Leads (execPgetc s) (ChannelKept .pgetc s) := by
  unfold execPgetc
  cases s.current.ms
  case ms1 => exact .ite (kept_raise _) (kept_devRead fun _ u => .ite ⟨rfl, rfl⟩ (.refl u))
  case ms2 => exact kept_devRead fun _ _ => ⟨rfl, rfl⟩
  all_goals exact leads_fault _

theorem execPutc_kept (b : Byte) (s : State) : Leads (execPutc b s) (ChannelKept (.putc b) s) := by
  unfold execPutc
  cases s.current.ms
  case ms1 => exact .ite (kept_next ⟨rfl, rfl⟩) (kept_raise _)
  case ms2 => exact .ite (kept_next ⟨rfl, rfl⟩) (kept_writeRingSlot fun _ => ⟨rfl, rfl⟩)
  case ms3 => exact kept_next ⟨rfl, rfl⟩
  case ms4 => exact kept_devRead fun _ _ => ⟨rfl, rfl⟩
  case ms5 => exact kept_devWrite (fun _ => rfl) fun _ => ⟨rfl, rfl⟩
  all_goals exact leads_fault _

theorem execGetc_kept (s : State) : Leads (execGetc s) (ChannelKept .getc s) := by
  unfold execGetc
  cases s.current.ms
  case ms1 => exact .ite (kept_next ⟨rfl, rfl⟩) (kept_raise _)
  case ms2 => exact .ite (kept_next ⟨rfl, rfl⟩) (kept_readRingSlot fun _ => ⟨rfl, rfl⟩)
  case ms3 => exact kept_next ⟨rfl, rfl⟩
  all_goals exact leads_fault _

theorem execBringup_kept (s : State) : Leads (execBringup s) (ChannelKept .bringup s) := by
  unfold execBringup
  cases s.current.ms
  case ms1 => exact kept_next ⟨rfl, rfl⟩
  case ms2 => exact kept_next (.ite ⟨rfl, rfl⟩ (.refl s))
  all_goals exact leads_fault _

theorem execPdown_kept (mode : PowerMode) (s : State) : Leads (execPdown mode s) (ChannelKept (.pdown mode) s) := by
  unfold execPdown
  cases s.current.ms
  case ms1 => exact kept_next ⟨rfl, rfl⟩
  case ms2 => exact kept_next (.ite ⟨rfl, rfl⟩ (.refl s))
  all_goals exact leads_fault _

theorem execIrqoff_kept (s : State) : Leads (execIrqoff s) (ChannelKept .irqoff s) := by
  unfold execIrqoff
  cases s.current.ms
  case ms1 => exact kept_next ⟨rfl, rfl⟩
  all_goals exact leads_fault _

theorem execIrqon_kept (s : State) : Leads (execIrqon s) (ChannelKept .irqon s) := by
  unfold execIrqon
  cases s.current.ms
  case ms1 => exact kept_next ⟨rfl, rfl⟩
  all_goals exact leads_fault _

theorem execRdtick_kept (s : State) : Leads (execRdtick s) (ChannelKept .rdtick s) := by
  unfold execRdtick
  cases s.current.ms
  case ms1 => exact kept_next ⟨rfl, rfl⟩
  all_goals exact leads_fault _

/-- HOST's micro-step of any command but CHINIT leaves CHEN (R258), and under a channel UART_CTRL unless it is PUTC's or
UINIT's to write. -/
theorem exec_kept {i : Instr} (hi : i ≠ .chinit) (s : State) : Leads (exec i s) (ChannelKept i s) := by
  cases i with
  | rd slot => exact execRd_kept slot s
  | wr slot => exact execWr_kept slot s
  | rdbit slot bit => exact execRdbit_kept slot bit s
  | wrbit slot bit v => exact execWrbit_kept slot bit v s
  | poll slot bit v => exact execPoll_kept slot bit v s
  | tryput k b => exact execTryput_kept k b s
  | tryget k => exact execTryget_kept k s
  | isfull k => exact execIsfull_kept k s
  | isempty k => exact execIsempty_kept k s
  | count k => exact execCount_kept k s
  | uinit => exact execUinit_kept s
  | chinit => exact absurd rfl hi
  | pputc b => exact execPputc_kept b s
  | pgetc => exact execPgetc_kept s
  | putc b => exact execPutc_kept b s
  | getc => exact execGetc_kept s
  | bringup => exact execBringup_kept s
  | pdown mode => exact execPdown_kept mode s
  | irqoff => exact execIrqoff_kept s
  | irqon => exact execIrqon_kept s
  | rdtick => exact execRdtick_kept s

end Sys2Proof.Machine
end

section
/-! SUPPORT. The channel over one step (R258, R262): CHINIT's micro-steps, the step of every move by what it may do to
the channel, and that a TX ring with bytes in it has its interrupt enabled. -/

namespace Sys2Proof.Machine

/-! ### CHINIT (R257) -/

/-- What a micro-step of CHINIT does to the channel: a fault, a step that leaves it before ms7, the clearing of the TX
indices, UART_CTRL, or CHEN. -/
inductive ChinitStep (s : State) : State → Prop
  | raise (c : FaultCode) : ChinitStep s (s.raise c)
  | early {t : State} (hchen : t.chen = s.chen) (hms : t.current.ms.number ≤ 6) : ChinitStep s t
  | clearW (hms : s.current.ms = .ms6) : ChinitStep s ((s.setRingW .tx 0).goto .ms7)
  | clearR (hms : s.current.ms = .ms7) : ChinitStep s ((s.setRingR .tx 0).goto .ms8)
  | enable {t : State} (hms : s.current.ms = .ms8) (hchen : t.chen = s.chen) (hrings : SameRings s t) :
      ChinitStep s (t.goto .ms9)
  | complete (hms : s.current.ms = .ms9) : ChinitStep s { s.done with chen := true }

section

variable {s : State}

theorem chinit_early {t : State} (hchen : t.chen = s.chen) (hms : t.current.ms.number ≤ 6) :
    Leads (.next t) (ChinitStep s) := leads_next (.early hchen hms)

theorem chinit_devWrite {r : Slot} {v : Word} {m : MicroStep} (hm : m.number ≤ 6) :
    Leads (commit s (devWrite s r v >>= fun u => pure (u.goto m))) (ChinitStep s) :=
  leads_commit .raise (gives_bind (gives_devWrite (gives_ok (.early (s.regWrite_chen r v) hm))))

theorem execChinit_step (s : State) : Leads (execChinit s) (ChinitStep s) := by
  unfold execChinit
  cases hms : s.current.ms
  case ms1 =>
    exact .ite (leads_next (.raise _)) (leads_commit .raise
      (gives_devRead fun _ => gives_ok (.early (s.afterRead_chen _) (Nat.le_of_ble_eq_true rfl))))
  case ms2 => exact chinit_devWrite (Nat.le_of_ble_eq_true rfl)
  case ms3 => exact chinit_devWrite (Nat.le_of_ble_eq_true rfl)
  case ms4 => exact chinit_early rfl (Nat.le_of_ble_eq_true rfl)
  case ms5 => exact chinit_early rfl (Nat.le_of_ble_eq_true rfl)
  case ms6 => exact leads_next (.clearW hms)
  case ms7 => exact leads_next (.clearR hms)
  case ms8 =>
    exact leads_commit .raise (gives_bind (gives_devWrite (gives_ok
      (.enable hms (s.regWrite_chen _ _) (sameRings_regWrite s _ _)))))
  case ms9 => exact leads_next (.complete hms)

end

/-- CHINIT leaves CHEN until its ms9, which sets it (R257). -/
theorem ChinitStep.chen {s t : State} (h : ChinitStep s t) :
    t.chen = s.chen ∨ (t.chen = true ∧ s.current.ms = .ms9) := by
  cases h with
  | complete hms => exact .inr ⟨rfl, hms⟩
  | early hchen _ => exact .inl hchen
  | enable _ hchen _ => exact .inl hchen
  | raise | clearW | clearR => exact .inl rfl

/-- A micro-step of HOST leaves CHEN, or sets it as CHINIT's ms9 (R258). -/
theorem exec_chen (i : Instr) (s : State) :
    Leads (exec i s) fun t => t.chen = s.chen ∨ (t.chen = true ∧ i = .chinit ∧ s.current.ms = .ms9) := by
  intro t ht
  by_cases hi : i = .chinit
  · subst hi
    exact (execChinit_step s t ht).chen.imp_right fun ⟨hchen, hms⟩ => ⟨hchen, rfl, hms⟩
  · exact .inl (exec_kept hi s t ht).chen

/-! ### One step, by what it may do to the channel -/

/-- The step leaves the rings, CHEN and UART_CTRL, and the command too unless it latches one. -/
structure LeavesChannel (s t : State) : Prop where
  rings : SameRings s t
  channel : SameChannel s t
  command : (t.busy = s.busy ∧ t.current = s.current) ∨ (s.busy = false ∧ NoCommandPastMs1 t)

theorem LeavesRings.leavesChannel {s t : State} (h : LeavesRings s t) (hctrl : t.uartCtrl = s.uartCtrl) :
    LeavesChannel s t := ⟨h.rings, ⟨h.chen, hctrl⟩, .inl ⟨h.busy, h.current⟩⟩

theorem leavesChannel_raise (s : State) (c : FaultCode) : LeavesChannel s (s.raise c) :=
  (leavesRings_raise s c).leavesChannel rfl

theorem leavesChannel_takeMove (s : State) : LeavesChannel s s.takeMove :=
  (leavesRings_takeMove s).leavesChannel s.takeMove_uartCtrl

theorem leavesChannel_checkFrequencies (s : State) : LeavesChannel s s.checkFrequencies :=
  ⟨⟨s.checkFrequencies_launch, s.checkFrequencies_mem⟩, ⟨s.checkFrequencies_chen, s.checkFrequencies_uartCtrl⟩,
    .inl ⟨s.checkFrequencies_busy, s.checkFrequencies_current⟩⟩

theorem leavesChannel_latch {s : State} {c a : Word} {n : Nat} (hb : s.busy = false) :
    LeavesChannel s { State.latch { s with arg := a } c with hpc := n } :=
  ⟨⟨rfl, rfl⟩, ⟨rfl, rfl⟩, .inr ⟨hb, .inr rfl⟩⟩

theorem leavesChannel_urxStep (s : State) : LeavesChannel s (urxStep s) := by
  refine (leavesRings_urxStep s).leavesChannel ?_
  obtain ⟨-, h⟩ | ⟨b, rest, stat, byte, -, h⟩ := urxStep_cases s <;> rw [h]

theorem leavesChannel_wakeFromStop (s : State) : LeavesChannel s (wakeFromStop s) := by
  obtain ⟨cr, cfgr, h⟩ := wakeFromStop_eq s
  rw [h]
  exact ⟨⟨rfl, rfl⟩, ⟨rfl, rfl⟩, .inl ⟨rfl, rfl⟩⟩

theorem gives_cseqStep_leavesChannel (s : State) : Gives (cseqStep s) (LeavesChannel s) := fun t ht =>
  (gives_cseqStep s t ht).leavesRings.leavesChannel
    (gives_cseqStep_stored (q := .uartCtrl) rfl nofun s t ht)

/-- An enabled move leaves the channel, or is a wake from standby, a HOST micro-step or a UART handler run. -/
theorem leads_perform_channel {m : Move} {s : State} {Q : State → Prop} (hen : enabled m s = true)
    (hleave : ∀ t, LeavesChannel s t → Q t) (hreset : m = .wake → s.pstate = .standby → Q (wakeFromStandby s))
    (hexec : ∀ i, s.busy = true → decode s.current.word = .ok i → Leads (exec i s) Q)
    (huart : s.chen = true → Gives (uartHandler s) Q) : Leads (perform m s) Q := by
  have hraise : ∀ c, Q (s.raise c) := fun c => hleave _ (leavesChannel_raise s c)
  have hplain : ∀ t, t.launch = s.launch → t.mem = s.mem → t.chen = s.chen → t.uartCtrl = s.uartCtrl →
      t.busy = s.busy → t.current = s.current → Q t := fun t hl hm hc hu hb hcur =>
    hleave t ⟨⟨hl, hm⟩, ⟨hc, hu⟩, .inl ⟨hb, hcur⟩⟩
  cases m with
  | host =>
    exact leads_hostStep_exec hraise hexec fun _ =>
      gives_issue (fun _ => hplain s rfl rfl rfl rfl rfl rfl) fun _ _ _ hb _ => hleave _ (leavesChannel_latch hb)
  | cseq => exact leads_commit hraise ((gives_cseqStep_leavesChannel s).mono hleave)
  | irqe => exact leads_commit hraise (gives_irqeStep_enabled hen (hplain _ rfl rfl rfl rfl rfl rfl) huart)
  | urx => exact leads_next (hleave _ (leavesChannel_urxStep s))
  | wake =>
    refine leads_next ?_
    unfold wakeStep
    split
    · exact hplain s rfl rfl rfl rfl rfl rfl
    · exact hleave _ (leavesChannel_wakeFromStop s)
    · next hp => exact hreset rfl hp
  | portCmd c =>
    exact leads_commit hraise (gives_cmdWrite fun _ hb _ => hleave _ (leavesChannel_latch (a := s.arg) (n := s.hpc) hb))
  | osc | pll | clksw | tick | utx | portArg _ => exact leads_next (hplain _ rfl rfl rfl rfl rfl rfl)

/-! ### CHEN (R258) -/

/-- The move `m` leaves CHEN, clears it as a wake from standby, or sets it as CHINIT's ms9. -/
def ChenStep (m : Move) (s t : State) : Prop :=
  t.chen = s.chen ∨ (t.chen = false ∧ m = .wake ∧ s.pstate = .standby) ∨
    (t.chen = true ∧ decode s.current.word = .ok .chinit ∧ s.current.ms = .ms9)

theorem perform_chen {m : Move} {s : State} (hen : enabled m s = true) : Leads (perform m s) (ChenStep m s) := by
  refine leads_perform_channel hen (fun t h => .inl h.channel.chen) (fun hm hp => .inr (.inl ⟨rfl, hm, hp⟩))
    (fun i _ hi t ht => ?_) fun _ t ht => .inl (gives_uartHandler s t ht).frame.chen
  obtain hsame | ⟨hchen, rfl, hms⟩ := exec_chen i s t ht
  · exact .inl hsame
  · exact .inr (.inr ⟨hchen, hi, hms⟩)

theorem step_chen {s t : State} (h : step s = .next t) : ChenStep s.nextMove s t := by
  obtain ⟨-, h⟩ := step_eq_next.mp h
  obtain ⟨-, rfl⟩ | ⟨hen, u, hu, rfl⟩ := moveStep_eq_next.mp h
  · exact .inl s.takeMove_chen
  · simpa [ChenStep] using perform_chen hen u hu

/-- Settles O40: the two ways CHEN changes, each in one direction, and CHINIT's check at its ms1. -/
theorem channelIsNeverDestroyed : Obligations.ChannelIsNeverDestroyed := by
  unfold Obligations.ChannelIsNeverDestroyed
  refine fun s => ⟨fun t h => ⟨fun hs ht => ?_, fun hs ht => ?_⟩, exec_of_channelExcludes rfl⟩
  · obtain hsame | ⟨-, hm, hp⟩ | ⟨hset, -⟩ := step_chen h
    · simp [hs, ht] at hsame
    · exact ⟨hp, hm⟩
    · simp [ht] at hset
  · obtain hsame | ⟨hclear, -⟩ | ⟨-, hword, hms⟩ := step_chen h
    · simp [hs, ht] at hsame
    · simp [ht] at hclear
    · exact ⟨hword, hms⟩

end Sys2Proof.Machine
end

section
/-! SUPPORT. A TX ring with bytes in it has its interrupt enabled (R262), and CHINIT leaves TX empty when it sets CHEN
(R257): what keeps TX and UART_CTRL, and the steps that change one of them. -/

namespace Sys2Proof.Machine

/-! ### The two invariants -/

/-- TX is empty or its interrupt is enabled. -/
def TxEnabled (s : State) : Prop := s.ringW .tx = s.ringR .tx ∨ s.txie = true

/-- The indices of TX that CHINIT has cleared so far read 0 (R257). -/
def TxCleared (s : State) : Prop :=
  (s.current.ms = .ms7 → s.ringW .tx = 0) ∧
    (s.current.ms = .ms8 ∨ s.current.ms = .ms9 → s.ringW .tx = 0 ∧ s.ringR .tx = 0)

theorem insidePutcEnable_iff {s : State} : insidePutcEnable s = true ↔
    s.busy = true ∧ ∃ b, decode s.current.word = .ok (.putc b) ∧ (s.current.ms = .ms4 ∨ s.current.ms = .ms5) := by
  cases hd : decode s.current.word with
  | error e => simp [insidePutcEnable, hd]
  | ok i => cases i <;> simp [insidePutcEnable, hd]

theorem enableFollowsQueue_iff {s : State} :
    enableFollowsQueue s = true ↔ (s.chen = true → insidePutcEnable s = true ∨ TxEnabled s) := by
  simp [enableFollowsQueue, TxEnabled, imp_iff_not_or, or_assoc]

theorem chinitEmptiesTx_iff {s : State} : chinitEmptiesTx s = true ↔
    (s.chen = false → s.busy = true → decode s.current.word = .ok .chinit → TxCleared s) := by
  cases hchen : s.chen
  case true => simp [chinitEmptiesTx, hchen]
  cases hb : s.busy
  case false => simp [chinitEmptiesTx, hb]
  cases hd : decode s.current.word with
  | error e => simp [chinitEmptiesTx, hd]
  | ok i =>
    cases i
    case chinit => cases hms : s.current.ms <;> simp [chinitEmptiesTx, TxCleared, hchen, hb, hd, hms]
    all_goals simp [chinitEmptiesTx, hd]

/-- Both invariants of R262. -/
structure QueueKept (s : State) : Prop where
  enable : enableFollowsQueue s = true
  cleared : chinitEmptiesTx s = true

/-- From `s` to `t` the indices of TX and UART_CTRL are the same. -/
structure SameTx (s t : State) : Prop where
  indexW : t.ringW .tx = s.ringW .tx
  indexR : t.ringR .tx = s.ringR .tx
  uartCtrl : t.uartCtrl = s.uartCtrl

theorem SameTx.txEnabled {s t : State} (h : SameTx s t) (hs : TxEnabled s) : TxEnabled t := by
  simpa only [TxEnabled, State.txie, h.indexW, h.indexR, h.uartCtrl] using hs

theorem SameRings.sameTx {s t : State} (h : SameRings s t) (hctrl : t.uartCtrl = s.uartCtrl) : SameTx s t :=
  ⟨h.ringW .tx, h.ringR .tx, hctrl⟩

/-- What leaves the channel keeps both invariants. -/
theorem LeavesChannel.queueKept {s t : State} (h : LeavesChannel s t) (hs : QueueKept s) : QueueKept t := by
  obtain ⟨henable, hcleared⟩ := hs
  rw [enableFollowsQueue_iff] at henable
  rw [chinitEmptiesTx_iff] at hcleared
  have htx := (h.rings.sameTx h.channel.uartCtrl).txEnabled
  refine ⟨enableFollowsQueue_iff.mpr fun hchen => ?_, chinitEmptiesTx_iff.mpr fun hchen hbt hi => ?_⟩
  · have hold := henable (h.channel.chen ▸ hchen)
    obtain ⟨hb, hc⟩ | ⟨hidle, -⟩ := h.command
    · exact hold.imp (fun hin => by simpa [insidePutcEnable, hb, hc] using hin) htx
    · exact .inr (htx (hold.resolve_left (by simp [insidePutcEnable, hidle])))
  · obtain ⟨hb, hc⟩ | ⟨-, hfresh⟩ := h.command
    · have hold := hcleared (h.channel.chen ▸ hchen) (hb ▸ hbt) (hc ▸ hi)
      simpa only [TxCleared, h.rings.ringW, h.rings.ringR, hc] using hold
    · have hms : t.current.ms = .ms1 := hfresh.resolve_left (by simp [hbt])
      exact ⟨by simp [hms], by simp [hms]⟩

/-! ### Commands that leave TX -/

/-- A store elsewhere leaves W_TX. -/
theorem StoresWithin.ringW_tx {s t : State} {range : Option (Nat × Nat)} (h : StoresWithin range s t)
    (hl : t.launch = s.launch)
    (hout : ∀ p, range = some p → p.1 + p.2 ≤ s.launch.ringBaseTx ∨ s.launch.ringBaseTx + 4 ≤ p.1) :
    t.ringW .tx = s.ringW .tx := by
  simp only [State.ringW, ringBase, hl]
  refine memRead4_congr fun a hlo hhi => h a fun p hp => ?_
  have := hout p hp
  omega

/-- The commands that write the index W_TX (R233, R257, R260). -/
def writesTxIndex : Instr → Bool
  | .tryput .tx _ => true
  | .chinit => true
  | .putc _ => true
  | _ => false

/-- A command other than those stores away from W_TX. -/
theorem storedBytes_apart_indexW_tx {i : Instr} {s : State} (hs : RingsSound s) (hi : writesTxIndex i = false)
    {p : Nat × Nat} (hp : storedBytes i s = some p) :
    p.1 + p.2 ≤ s.launch.ringBaseTx ∨ s.launch.ringBaseTx + 4 ≤ p.1 := by
  have hap := rings_apart hs.launch
  have hw : (s.ringW .rx).toNat < s.launch.nrx := hs.indexW .rx
  unfold storedBytes at hp
  cases i
  case tryput k b =>
    cases k
    case tx => cases hi
    case rx =>
      cases hms : s.current.ms <;> simp only [hms, ringSlotAddr, ringBase, reduceCtorEq] at hp
      case ms2 =>
        split at hp <;> cases hp
        omega
      case ms3 => cases hp; omega
  case tryget k =>
    cases hms : s.current.ms <;> simp only [hms, reduceCtorEq] at hp
    cases hp
    cases k <;> simp only [ringBase] <;> omega
  case getc =>
    cases hms : s.current.ms <;> simp only [hms, ringBase, reduceCtorEq] at hp
    cases hp
    omega
  case putc => cases hi
  case chinit => cases hi
  all_goals cases hp

/-- A command that a channel admits, but for TRYPUT TX and PUTC, writes neither W_TX nor, as a device write,
UART_CTRL. -/
theorem writes_of_admitted {i : Instr} (hex : channelExcludes i = false) (hput : ∀ b, i ≠ .tryput .tx b)
    (hputc : ∀ b, i ≠ .putc b) : writesUartCtrl i = false ∧ writesTxIndex i = false := by
  cases i
  case tryput k b =>
    cases k
    case rx => cases hex
    case tx => exact absurd rfl (hput b)
  case putc b => exact absurd rfl (hputc b)
  case uinit => cases hex
  case chinit => cases hex
  all_goals exact ⟨rfl, rfl⟩

/-- Under a channel a command that is kept out by it faults, and every other but PUTC and TRYPUT TX leaves TX and its
interrupt (R231, R250). -/
theorem exec_sameTx {i : Instr} {s : State} (hs : RingsSound s) (hchen : s.chen = true)
    (hpast : ¬ PastChannelCheck i s) (hput : ∀ b, i ≠ .tryput .tx b) (hputc : ∀ b, i ≠ .putc b) :
    Leads (exec i s) (SameTx s) := by
  intro t ht
  cases hex : channelExcludes i with
  | true =>
    have hms : s.current.ms = .ms1 := by simpa [PastChannelCheck, hex] using hpast
    obtain rfl := Host.Outcome.next.inj (ht.symm.trans (exec_of_channelExcludes hex hchen hms))
    exact ⟨rfl, rfl, rfl⟩
  | false =>
    obtain ⟨hctrl, hindex⟩ := writes_of_admitted hex hput hputc
    have hi : i ≠ .chinit := by rintro rfl; cases hex
    have hstep := exec_host i s t ht
    refine ⟨?_, (hstep.handlerIndices hs.launch hpast).2, (exec_kept hi s t ht).uartCtrl hchen hctrl⟩
    exact (exec_storesWithin i s t ht).ringW_tx hstep.frame.launch fun p => storedBytes_apart_indexW_tx hs hindex

/-! ### PUTC (R260) -/

theorem txie_rwMerge_or (old v : Word) : (rwMerge (Slot.rwMask .uartCtrl) old (v ||| 4#32)).getLsbD 2 = true := by
  have hmask : (Slot.rwMask .uartCtrl).getLsbD 2 = true := by decide
  have hbit : (4#32).getLsbD 2 = true := by decide
  rw [getLsbD_rwMerge, if_pos hmask, BitVec.getLsbD_or, hbit, Bool.or_true]

/-- PUTC leaves TX until its ms3, is inside its enable from there, and ends with the interrupt enabled. -/
theorem execPutc_enable {b : Byte} {s : State} (hs : RingsSound s) (hb : s.busy = true)
    (hi : decode s.current.word = .ok (.putc b)) (henable : insidePutcEnable s = true ∨ TxEnabled s) :
    Leads (execPutc b s) fun t => insidePutcEnable t = true ∨ TxEnabled t := by
  have hinside : ∀ {t : State}, t.busy = true → t.current.word = s.current.word →
      (t.current.ms = .ms4 ∨ t.current.ms = .ms5) → insidePutcEnable t = true ∨ TxEnabled t := fun htb hw hms =>
    .inl (insidePutcEnable_iff.mpr ⟨htb, b, hw ▸ hi, hms⟩)
  have hbefore : (s.current.ms ≠ .ms4 ∧ s.current.ms ≠ .ms5) → TxEnabled s := fun hms =>
    henable.resolve_left fun hin => by
      obtain ⟨-, -, -, h⟩ := insidePutcEnable_iff.mp hin
      exact h.elim hms.1 hms.2
  unfold execPutc
  cases hms : s.current.ms
  case ms1 =>
    have htx : TxEnabled s := hbefore (by simp [hms])
    exact .ite (leads_next (.inr htx)) (leads_next (.inr htx))
  case ms2 =>
    have htx : TxEnabled s := hbefore (by simp [hms])
    have hfill : SameTx s (s.fill .tx b) := ⟨ringW_fill hs b, ringR_fill hs b, rfl⟩
    exact .ite (leads_next (.inr htx)) (leads_writeRingSlot (.inr (hfill.txEnabled htx)))
  case ms3 => exact leads_next (hinside hb rfl (.inl rfl))
  case ms4 =>
    have hword : (s.afterRead .uartCtrl).current.word = s.current.word := by rw [s.afterRead_current]
    exact leads_commit (fun _ => hinside hb rfl (.inl hms)) (gives_devRead fun v => gives_ok
      (hinside ((s.afterRead_busy _).trans hb) hword (.inr rfl)))
  case ms5 =>
    exact leads_commit (fun _ => hinside hb rfl (.inr hms)) (gives_bind (gives_devWrite (gives_ok
      (.inr (.inr (txie_rwMerge_or _ _))))))
  all_goals exact leads_fault _

/-! ### CHINIT (R257) -/

/-- CHINIT clears the indices of TX before it sets CHEN. -/
theorem ChinitStep.queueKept {s t : State} (h : ChinitStep s t) (hs : RingsSound s) (hq : QueueKept s)
    (hchen : s.chen = false) (hcleared : TxCleared s) : QueueKept t := by
  have hoff : ∀ {t : State}, t.chen = s.chen → TxCleared t → QueueKept t := fun htc hclear =>
    ⟨enableFollowsQueue_iff.mpr (by simp [htc, hchen]), chinitEmptiesTx_iff.mpr fun _ _ _ => hclear⟩
  cases h with
  | raise c => exact (leavesChannel_raise s c).queueKept hq
  | early htc hms =>
    refine hoff htc ⟨fun h7 => ?_, ?_⟩
    · exact absurd hms (by simp [h7, MicroStep.number])
    · rintro (h8 | h9)
      · exact absurd hms (by simp [h8, MicroStep.number])
      · exact absurd hms (by simp [h9, MicroStep.number])
  | clearW hms => exact hoff rfl ⟨fun _ => ringW_setRingW_same hs.canonical .tx 0, by simp⟩
  | clearR hms =>
    refine hoff rfl ⟨by simp, fun _ => ⟨?_, ringR_setRingR_same hs.canonical .tx 0⟩⟩
    exact (ringW_setRingR hs.launch .tx .tx 0).trans (hcleared.1 hms)
  | enable hms htc hrings =>
    obtain ⟨hw, hr⟩ := hcleared.2 (.inl hms)
    exact hoff htc ⟨by simp, fun _ => ⟨(hrings.ringW .tx).trans hw, (hrings.ringR .tx).trans hr⟩⟩
  | complete hms =>
    obtain ⟨hw, hr⟩ := hcleared.2 (.inr hms)
    exact ⟨enableFollowsQueue_iff.mpr fun _ => .inr (.inl (hw.trans hr.symm)), chinitEmptiesTx_iff.mpr nofun⟩

/-! ### Any micro-step -/

/-- No TRYPUT TX, which does not set TXIE (R233), is latched under a channel. -/
def NoTryputTx (s : State) : Prop := s.chen = true → ∀ b, decode s.current.word ≠ .ok (.tryput .tx b)

/-- HOST's micro-step of any command keeps both invariants. -/
theorem exec_queueKept {i : Instr} {s : State} (hs : RingsSound s) (hex : driverExcluded s = true)
    (hput : NoTryputTx s) (hq : QueueKept s) (hb : s.busy = true) (hi : decode s.current.word = .ok i) :
    Leads (exec i s) QueueKept := by
  intro t ht
  cases hchen : s.chen with
  | true =>
    have hct : t.chen = true := (exec_chen i s t ht).elim (·.trans hchen) And.left
    refine ⟨enableFollowsQueue_iff.mpr fun _ => ?_, chinitEmptiesTx_iff.mpr (by simp [hct])⟩
    have henable := enableFollowsQueue_iff.mp hq.enable hchen
    by_cases hputc : ∃ b, i = .putc b
    · obtain ⟨b, rfl⟩ := hputc
      exact execPutc_enable hs hb hi henable t ht
    · have hno : ∀ b, i ≠ .putc b := fun b h => hputc ⟨b, h⟩
      have hsame := exec_sameTx hs hchen (driverExcluded_iff.mp hex hchen hb i hi)
        (by rintro b rfl; exact hput hchen b hi) hno t ht
      refine .inr (hsame.txEnabled (henable.resolve_left fun hin => ?_))
      obtain ⟨-, b, hd, -⟩ := insidePutcEnable_iff.mp hin
      exact hno b (Except.ok.inj (hi.symm.trans hd))
  | false =>
    by_cases hinit : i = .chinit
    · subst hinit
      exact (execChinit_step s t ht).queueKept hs hq hchen (chinitEmptiesTx_iff.mp hq.cleared hchen hb hi)
    · have hct : t.chen = false := (exec_kept hinit s t ht).chen.trans hchen
      refine ⟨enableFollowsQueue_iff.mpr (by simp [hct]), chinitEmptiesTx_iff.mpr fun _ hbt hit => ?_⟩
      obtain hdone | ⟨-, -, hword⟩ := (exec_host i s t ht).word
      · simp [hdone] at hbt
      · exact absurd (Except.ok.inj (hi.symm.trans (hword ▸ hit))) hinit

/-! ### The UART handler (R277, R278) -/

/-- The receive rule leaves TX and its interrupt. -/
theorem gives_rxRule_sameTx {s : State} (hs : RingsSound s) : Gives (rxRule s) (SameTx s) := by
  intro t ht
  refine ⟨(gives_rxRule_hostView hs t ht).tx.indexW, rxRule_ringR_tx hs.launch ht, ?_⟩
  have hput : ∀ (u : State) (b : Byte), Gives (putByte u .rx b) fun v => v.uartCtrl = u.uartCtrl := fun u b => by
    unfold putByte
    exact .ite (gives_ok rfl) (gives_map (gives_writeRingSlot fun _ => rfl))
  unfold rxRule at ht
  exact Gives.ite (Q := fun v => v.uartCtrl = s.uartCtrl) (gives_devRead fun v =>
    (hput _ _).mono fun w hw => hw.trans (s.afterRead_uartCtrl _)) (gives_ok rfl) t ht

/-- The transmit rule takes a byte with the interrupt enabled, and disables it only for an empty ring. -/
theorem gives_txRule_txEnabled {s : State} (hs : TxEnabled s) : Gives (txRule s) TxEnabled := by
  unfold txRule getByte
  split
  · next hsend =>
    have htxie : s.txie = true := (Bool.and_eq_true_iff.mp hsend).2
    split
    · exact gives_bind (gives_map fun b _ => gives_devWrite (.inr htxie))
    · next hempty => exact gives_devWrite (.inl (not_not.mp hempty))
  · exact gives_ok hs

/-- A handler run, which finds a channel, keeps both invariants. -/
theorem uartHandler_queueKept {s : State} (hs : RingsSound s) (hq : QueueKept s) (hchen : s.chen = true) :
    Gives (uartHandler s) QueueKept := by
  intro t ht
  have hframe := (gives_uartHandler s t ht).frame
  have htx : TxEnabled s → TxEnabled t := fun hs' =>
    gives_bind (fun u hu => gives_txRule_txEnabled ((gives_rxRule_sameTx hs u hu).txEnabled hs')) t ht
  refine ⟨enableFollowsQueue_iff.mpr fun _ => ?_, chinitEmptiesTx_iff.mpr (by simp [hframe.chen, hchen])⟩
  exact (enableFollowsQueue_iff.mp hq.enable hchen).imp
    (fun hin => by simpa [insidePutcEnable, hframe.busy, hframe.current] using hin) htx

/-! ### The statement -/

/-- A wake from standby clears CHEN and leaves no command (R206). -/
theorem queueKept_wakeFromStandby (s : State) : QueueKept (wakeFromStandby s) := ⟨rfl, rfl⟩

/-- Every enabled move's step keeps both invariants. -/
theorem perform_queueKept {m : Move} {s : State} (hs : RingsSound s) (hex : driverExcluded s = true)
    (hput : NoTryputTx s) (hq : QueueKept s) (hen : enabled m s = true) : Leads (perform m s) QueueKept :=
  leads_perform_channel hen (fun _ h => h.queueKept hq) (fun _ _ => queueKept_wakeFromStandby s)
    (fun _ => exec_queueKept hs hex hput hq) (uartHandler_queueKept hs hq)

/-- Settles O38: what the taken move does to the two invariants, with the schedule and the frequency checks leaving
the channel. -/
theorem enableFollowsTheQueue : Obligations.EnableFollowsTheQueue := by
  unfold Obligations.EnableFollowsTheQueue
  intro s t hm hr hex hcleared hput henable h
  obtain ⟨-, h⟩ := step_eq_next.mp h
  have htake := leavesChannel_takeMove s
  have hq : QueueKept s.takeMove := htake.queueKept ⟨henable, hcleared⟩
  have ht : QueueKept t := by
    obtain ⟨-, rfl⟩ | ⟨hen, u, hu, rfl⟩ := moveStep_eq_next.mp h
    · exact hq
    · have hs := htake.rings.ringsSound (ringsSound_iff.mpr ⟨hm, hr⟩)
      have hput' : NoTryputTx s.takeMove := by simpa [NoTryputTx] using hput
      have hex' := (leavesRings_takeMove s).driverExcluded hex
      exact (leavesChannel_checkFrequencies u).queueKept (perform_queueKept hs hex' hput' hq hen u hu)
  exact ⟨ht.enable, ht.cleared⟩

end Sys2Proof.Machine
end

section
/-! SUPPORT. Device reads and writes of the UART slots and of PENR (R57, R58, R167): when they pass their checks and what
they then give, and the fault of each check. -/

namespace Sys2Proof.Machine

variable {s : State} {r : Slot} {v : Word}

/-! ### Reads -/

theorem devRead_of_clock (h : r.isUart = true → s.uartEn = true) :
    devRead s r = .ok (s.regValue r, s.afterRead r) := by
  refine devRead_eq_ok.mpr ⟨?_, rfl⟩
  cases hr : r.isUart
  · rfl
  · simp [h hr]

/-- No read but UART_DATA's has an effect (R50). -/
theorem devRead_of_plain (hr : r ≠ .uartData) (h : r.isUart = true → s.uartEn = true) :
    devRead s r = .ok (s.regValue r, s) := by
  rw [devRead_of_clock h, afterRead_of_ne hr]

theorem devRead_of_clock_off (hr : r.isUart = true) (h : s.uartEn = false) :
    devRead s r = .error (.raise .peripheralClockOff) :=
  devRead_eq_error.mpr ⟨by simp [hr, h], rfl⟩

/-! ### Writes -/

/-- On a peripheral slot the checks of R167 that concern the clock registers never fail. -/
theorem writeFault_of_peripheral (hr : r.isPeripheral = true) : writeFault s r v =
    if s.clockState ≠ .switched then some .peripheralBeforeSwitched
    else if r.isUart = true ∧ s.uartEn = false then some .peripheralClockOff
    else if v &&& r.reservedMask ≠ 0 then some .reservedBitWrite
    else if r = .uartData ∧ s.txe = false then some .txWhileBusy
    else none := by
  have hcfgr : r ≠ .clkCfgr := by rintro rfl; cases hr
  have hpllcfg : r ≠ .clkPllcfg := by rintro rfl; cases hr
  have hcr : r ≠ .clkCr := by rintro rfl; cases hr
  simp [writeFault, Slot.reservedCode, hr, hcfgr, hpllcfg, hcr]

theorem devWrite_of_fault {c : FaultCode} (h : writeFault s r v = some c) : devWrite s r v = .error (.raise c) :=
  devWrite_eq_error.mpr ⟨c, h, rfl⟩

theorem devWrite_of_early (hr : r.isPeripheral = true) (hclock : s.clockState ≠ .switched) :
    devWrite s r v = .error (.raise .peripheralBeforeSwitched) :=
  devWrite_of_fault (by rw [writeFault_of_peripheral hr, if_pos hclock])

theorem isPeripheral_of_isUart (hr : r.isUart = true) : r.isPeripheral = true := by simp [Slot.isPeripheral, hr]

theorem devWrite_of_clock_off (hr : r.isUart = true) (hclock : s.clockState = .switched) (huart : s.uartEn = false) :
    devWrite s r v = .error (.raise .peripheralClockOff) :=
  devWrite_of_fault (by
    rw [writeFault_of_peripheral (isPeripheral_of_isUart hr), if_neg (not_not.mpr hclock), if_pos ⟨hr, huart⟩])

section

variable (hr : r.isPeripheral = true) (hclock : s.clockState = .switched) (huart : r.isUart = true → s.uartEn = true)
include hr hclock huart

theorem devWrite_of_reserved (hres : v &&& r.reservedMask ≠ 0) : devWrite s r v = .error (.raise .reservedBitWrite) :=
  devWrite_of_fault (by
    rw [writeFault_of_peripheral hr, if_neg (not_not.mpr hclock), if_neg fun h => by simp [huart h.1] at h, if_pos hres])

/-- With the clocks on, no reserved bit set and for UART_DATA TXE = 1 the write stores. -/
theorem devWrite_of_clocks (hres : v &&& r.reservedMask = 0) (hdata : r = .uartData → s.txe = true) :
    devWrite s r v = .ok (s.regWrite r v) := by
  refine devWrite_eq_ok.mpr ⟨?_, rfl⟩
  rw [writeFault_of_peripheral hr, if_neg (not_not.mpr hclock), if_neg fun h => by simp [huart h.1] at h,
    if_neg (not_not.mpr hres), if_neg fun h => by simp [hdata h.1] at h]

end

/-! ### A micro-step that makes one access -/

theorem commit_bind_of_raise {α : Type} {x : Except Stop α} {c : FaultCode} {f : α → Except Stop State}
    (h : x = .error (.raise c)) : commit s (x >>= f) = .next (s.raise c) := by
  rw [h]
  rfl

theorem commit_devRead {f : Word × State → State} (hr : r ≠ .uartData) (h : r.isUart = true → s.uartEn = true) :
    commit s (devRead s r >>= fun p => pure (f p)) = .next (f (s.regValue r, s)) := by
  rw [devRead_of_plain hr h]
  rfl

theorem commit_devWrite {f : State → State} (hr : r.isPeripheral = true) (hclock : s.clockState = .switched)
    (huart : r.isUart = true → s.uartEn = true) (hres : v &&& r.reservedMask = 0)
    (hdata : r = .uartData → s.txe = true) :
    commit s (devWrite s r v >>= fun t => pure (f t)) = .next (f (s.regWrite r v)) := by
  rw [devWrite_of_clocks hr hclock huart hres hdata]
  rfl

/-! ### What is written (R42, R51, R52) -/

/-- Setting a bit that is not reserved sets no reserved bit. -/
theorem or_and_reservedMask {w x : Word} (hw : w &&& r.reservedMask = 0) (hx : x &&& r.reservedMask = 0) :
    (w ||| x) &&& r.reservedMask = 0 := by
  rw [BitVec.and_comm, BitVec.and_or_distrib_left, BitVec.and_comm, hw, BitVec.and_comm, hx]; rfl

/-- UART_BAUD's reserved bits are its upper half (R52). -/
theorem and_reservedMask_uartBaud (w : Word) : w &&& Slot.reservedMask .uartBaud = 0 ↔ fieldOf w 16 16 = 0 := by
  have hupper : ∀ j < 16, (Slot.reservedMask .uartBaud).getLsbD (16 + j) = true := by decide
  have hlower : ∀ j < 16, (Slot.reservedMask .uartBaud).getLsbD j = false := by decide
  constructor
  · intro h
    apply BitVec.eq_of_getLsbD_eq
    intro j hj
    rw [getLsbD_fieldOf]
    simpa [hj, hupper j hj] using congrArg (·.getLsbD (16 + j)) h
  · intro h
    apply BitVec.eq_of_getLsbD_eq
    intro j hj
    rw [BitVec.getLsbD_and]
    by_cases h16 : j < 16
    · simp [hlower j h16]
    · simp [getLsbD_eq_false_of_fieldOf h (show 16 ≤ j by omega) (by omega)]

end Sys2Proof.Machine
end

section
/-! SUPPORT. The polled driver's commands UINIT, PPUTC and PGETC and the channel's CHINIT, PUTC and GETC micro-step by
micro-step (R251 to R263). -/

namespace Sys2Proof.Machine

variable {s : State}

/-! ### UINIT and CHINIT (R251, R257) -/

/-- Settles O29: the reads and writes of the four micro-steps pass their checks, or fail the one named. -/
theorem uinitMicroSteps : Obligations.UinitMicroSteps := by
  unfold Obligations.UinitMicroSteps
  intro s
  refine ⟨fun hms hchen => ?_, fun hms hclock hres => ?_, fun hms hclock => ?_, fun hms hclock huart hbaud => ?_,
    fun hms hclock huart hbaud => ?_, fun hms hclock huart => ?_⟩ <;> simp only [exec, execUinit, hms]
  · rw [if_neg (Bool.eq_false_iff.mp hchen)]
    exact commit_devRead nofun nofun
  · exact commit_devWrite rfl hclock nofun (or_and_reservedMask hres (by decide)) nofun
  · exact commit_bind_of_raise (devWrite_of_early rfl hclock)
  · exact commit_devWrite rfl hclock (fun _ => huart) ((and_reservedMask_uartBaud _).mpr hbaud) nofun
  · exact commit_bind_of_raise
      (devWrite_of_reserved rfl hclock (fun _ => huart) (mt (and_reservedMask_uartBaud _).mp hbaud))
  · exact commit_devWrite rfl hclock (fun _ => huart) (by decide) nofun

/-- CHINIT begins as UINIT does (R257). -/
theorem exec_chinit_eq_uinit (hms : s.current.ms = .ms1 ∨ s.current.ms = .ms2 ∨ s.current.ms = .ms3) :
    exec .chinit s = exec .uinit s := by
  obtain hms | hms | hms := hms <;> simp only [exec, execChinit, execUinit, hms]

/-- Settles O30: UINIT's first three micro-steps, then the stores to ring RAM, UART_CTRL and CHEN. -/
theorem chinitMicroSteps : Obligations.ChinitMicroSteps := by
  unfold Obligations.ChinitMicroSteps
  intro s
  obtain ⟨huinit1, huinit2, hearly, huinit3, hreserved, -⟩ := uinitMicroSteps s
  have hsame := exec_chinit_eq_uinit (s := s)
  refine ⟨fun hms => hsame (.inl hms) ▸ huinit1 hms, fun hms => hsame (.inr (.inl hms)) ▸ huinit2 hms,
    fun hms => hsame (.inr (.inr hms)) ▸ huinit3 hms, fun hms => hsame (.inr (.inl hms)) ▸ hearly hms,
    fun hms => hsame (.inr (.inr hms)) ▸ hreserved hms, fun hms => ?_, fun hms => ?_, fun hms => ?_, fun hms => ?_,
    fun hms hclock huart => ?_, fun hms => ?_⟩ <;> simp only [exec, execChinit, hms]
  case refine_5 => exact commit_devWrite rfl hclock (fun _ => huart) (by decide) nofun
  all_goals rfl

/-! ### PPUTC and PGETC (R252, R253) -/

/-- UART_STAT reads TXE and RXNE as they are stored (R49). -/
theorem getLsbD_regValue_txe (s : State) : (s.regValue .uartStat).getLsbD 1 = s.txe :=
  getLsbD_regValue_ro s (by decide) (by decide)

theorem getLsbD_regValue_rxne (s : State) : (s.regValue .uartStat).getLsbD 0 = s.rxne :=
  getLsbD_regValue_ro s (by decide) (by decide)

theorem byte_of_word (b : Byte) : (b.setWidth 32).extractLsb' 0 8 = b := by
  apply BitVec.eq_of_getLsbD_eq
  intro j hj
  simp [hj, show j < 32 by omega]

/-- A UART_DATA write of a byte loads it into TXDATA and clears TXE (R50). -/
theorem regWrite_uartData_byte (s : State) (b : Byte) :
    s.regWrite .uartData (b.setWidth 32) = { s with txData := b, uartStat := s.uartStat &&& ~~~2#32 } := by
  rw [regWrite_uartData_eq, byte_of_word]

theorem exec_pputc_ms1 {b : Byte} (hms : s.current.ms = .ms1) (hchen : s.chen = false) (huart : s.uartEn = true) :
    exec (.pputc b) s = .next (if s.txe then s.goto .ms2 else s) := by
  simp only [exec, execPputc, hms]
  rw [if_neg (Bool.eq_false_iff.mp hchen), ← getLsbD_regValue_txe]
  exact commit_devRead nofun fun _ => huart

theorem exec_pgetc_ms1 (hms : s.current.ms = .ms1) (hchen : s.chen = false) (huart : s.uartEn = true) :
    exec .pgetc s = .next (if s.rxne then s.goto .ms2 else s) := by
  simp only [exec, execPgetc, hms]
  rw [if_neg (Bool.eq_false_iff.mp hchen), ← getLsbD_regValue_rxne]
  exact commit_devRead nofun fun _ => huart

/-- Settles O31: the flag decides ms1, and ms2 is a write of UART_DATA. -/
theorem pputcMicroSteps : Obligations.PputcMicroSteps := by
  unfold Obligations.PputcMicroSteps
  intro s b
  refine ⟨fun hms hchen huart htxe => ?_, fun hms hchen huart htxe => ?_, fun hms hchen huart => ?_,
    fun hms hclock huart htxe => ?_, fun hms hclock => ?_, fun hms hclock huart => ?_⟩
  · rw [exec_pputc_ms1 hms hchen huart, htxe]
    rfl
  · rw [exec_pputc_ms1 hms hchen huart, htxe]
    rfl
  · simp only [exec, execPputc, hms, hchen]
    exact commit_bind_of_raise (devRead_of_clock_off rfl huart)
  · simp only [exec, execPputc, hms]
    rw [commit_devWrite rfl hclock (fun _ => huart) (wordClear_uartData b).1 fun _ => htxe, regWrite_uartData_byte]
    rfl
  · simp only [exec, execPputc, hms]
    exact commit_bind_of_raise (devWrite_of_early rfl hclock)
  · simp only [exec, execPputc, hms]
    exact commit_bind_of_raise (devWrite_of_clock_off rfl hclock huart)

/-- Settles O32: the flag decides ms1, and ms2 is a read of UART_DATA. -/
theorem pgetcMicroSteps : Obligations.PgetcMicroSteps := by
  unfold Obligations.PgetcMicroSteps
  intro s
  refine ⟨fun hms hchen huart hrxne => ?_, fun hms hchen huart hrxne => ?_, fun hms huart => ?_,
    fun hms hchen huart => ?_, fun hms huart => ?_⟩
  · rw [exec_pgetc_ms1 hms hchen huart, hrxne]
    rfl
  · rw [exec_pgetc_ms1 hms hchen huart, hrxne]
    rfl
  · have hread := devRead_of_clock (s := s) (r := .uartData) fun _ => huart
    rw [afterRead_uartData, regValue_uartData] at hread
    simp only [exec, execPgetc, hms, hread, ok_bind, byte_of_word]
    rfl
  · simp only [exec, execPgetc, hms, hchen]
    exact commit_bind_of_raise (devRead_of_clock_off rfl huart)
  · simp only [exec, execPgetc, hms]
    exact commit_bind_of_raise (devRead_of_clock_off rfl huart)

/-! ### PUTC and GETC (R260, R261) -/

/-- Settles O33: the branches of PUTC's meaning, with the read and the write of UART_CTRL. -/
theorem putcMicroSteps : Obligations.PutcMicroSteps := by
  unfold Obligations.PutcMicroSteps
  intro s b
  refine ⟨fun hms hchen => ?_, fun hms hfull => ?_, fun hms hfull hw => ?_, fun hms => ?_, fun hms huart => ?_,
    fun hms hclock huart hres => ?_, fun hms huart => ?_, fun hms hclock => ?_, fun hms hclock huart => ?_⟩ <;>
    simp only [exec, execPutc, hms]
  · rw [if_pos hchen]
  · rw [if_pos (ringFull_iff (k := .tx).mpr hfull)]
    rfl
  · rw [if_neg (mt (ringFull_iff (k := .tx)).mp hfull), writeRingSlot_eq_ok.mpr ⟨hw, rfl⟩]
    rfl
  · rfl
  · exact commit_devRead nofun fun _ => huart
  · exact commit_devWrite rfl hclock (fun _ => huart) (or_and_reservedMask hres (by decide)) nofun
  · exact commit_bind_of_raise (devRead_of_clock_off rfl huart)
  · exact commit_bind_of_raise (devWrite_of_early rfl hclock)
  · exact commit_bind_of_raise (devWrite_of_clock_off rfl hclock huart)

/-- Settles O34: the branches of GETC's meaning. -/
theorem getcMicroSteps : Obligations.GetcMicroSteps := by
  unfold Obligations.GetcMicroSteps
  intro s
  refine ⟨fun hms hchen => ?_, fun hms hempty => ?_, fun hms hempty hr => ?_, fun hms => ?_⟩ <;>
    simp only [exec, execGetc, hms]
  · rw [if_pos hchen]
  · rw [if_pos hempty]
    rfl
  · rw [if_neg hempty]
    rw [readRingSlot_eq_ok.mpr ⟨hr, rfl⟩]
    rfl
  · rfl

/-! ### The checks of CHEN (R250, R263) -/

/-- Settles O35: the channel keeps the polled commands and CHINIT out, and PUTC and GETC check it themselves. -/
theorem driverAndChannelExclude : Obligations.DriverAndChannelExclude := by
  unfold Obligations.DriverAndChannelExclude
  refine fun s b hms => ⟨fun hchen i hi => ?_, fun hchen i hi => ?_⟩
  · have hex : channelExcludes i = true := by obtain rfl | rfl | rfl | rfl := hi <;> rfl
    exact exec_of_channelExcludes hex hchen hms
  · obtain rfl | rfl := hi
    · simp [exec, execPutc, hms, hchen]
    · simp [exec, execGetc, hms, hchen]

end Sys2Proof.Machine
end

section
/-! SUPPORT. The two rules of the UART handler (R277, R278) and the delivery of both interrupts (R275, R294 to R296,
R305, R307). -/

namespace Sys2Proof.Machine

variable {s : State}

/-! ### The receive rule (R277) -/

theorem rxRule_of_idle (h : (s.rxne && s.rxie) = false) : rxRule s = .ok s := by
  rw [rxRule, if_neg (Bool.eq_false_iff.mp h)]

/-- A put neither reads nor writes UART_STAT. -/
theorem putByte_uartStat (k : RingId) (b : Byte) (w : Word) :
    putByte { s with uartStat := w } k b = (putByte s k b).map fun t => { t with uartStat := w } := by
  have hW : State.ringW { s with uartStat := w } k = s.ringW k := rfl
  have hR : State.ringR { s with uartStat := w } k = s.ringR k := rfl
  simp only [putByte, writeRingSlot, hW, hR]
  split_ifs <;> rfl

theorem rxRule_of_clock_off (h : (s.rxne && s.rxie) = true) (huart : s.uartEn = false) :
    rxRule s = .error (.raise .peripheralClockOff) := by
  rw [rxRule, if_pos h, devRead_of_clock_off rfl huart, error_bind]

/-- With its interrupt due and the clock on the rule reads UART_DATA and puts the byte (R50, R277). -/
theorem rxRule_of_byte (h : (s.rxne && s.rxie) = true) (huart : s.uartEn = true) :
    rxRule s = (putByte s .rx s.rxData).map fun t => { t with uartStat := s.uartStat &&& ~~~5#32 } := by
  rw [rxRule, if_pos h, devRead_of_clock fun _ => huart, ok_bind, afterRead_uartData, regValue_uartData]
  exact (congrArg _ (byte_of_word _)).trans (putByte_uartStat _ _ _)

/-- Settles O36: the rule is a put of RXDATA with the flags cleared, and a put into a full ring is none. -/
theorem receiveRuleMovesOrDrops : Obligations.ReceiveRuleMovesOrDrops := by
  unfold Obligations.ReceiveRuleMovesOrDrops
  refine fun s => ⟨rxRule_of_idle, rxRule_of_clock_off, fun h huart =>
    ⟨fun hfull => ?_, fun _ => rxRule_of_byte h huart⟩⟩
  rw [rxRule_of_byte h huart, putByte_of_full hfull]
  rfl

/-! ### The transmit rule (R278) -/

theorem txRule_of_idle (h : (s.txe && s.txie) = false) : txRule s = .ok s := by
  rw [txRule, if_neg (Bool.eq_false_iff.mp h)]

/-- With its interrupt due and TX empty the rule writes UART_CTRL. -/
theorem txRule_of_empty (h : (s.txe && s.txie) = true) (hempty : s.ringW .tx = s.ringR .tx) :
    txRule s = devWrite s .uartCtrl (withBit (s.regValue .uartCtrl) 2 false) := by
  rw [txRule, if_pos h, if_neg (not_not.mpr hempty)]

/-- With its interrupt due and a byte in TX the rule takes the oldest and writes UART_DATA. -/
theorem txRule_of_byte (h : (s.txe && s.txie) = true) (hne : s.ringW .tx ≠ s.ringR .tx)
    (hr : (s.ringR .tx).toNat < s.launch.ntx) : txRule s =
      devWrite (s.release .tx) .uartData ((s.slotByte .tx (s.ringR .tx).toNat).setWidth 32) := by
  rw [txRule, if_pos h, if_pos hne, getByte, readRingSlot_eq_ok.mpr ⟨hr, rfl⟩]
  rfl

/-- Both writes are writes of a UART slot in a state with the clocks and TXE as they were. -/
theorem txRule_of_fault {c : FaultCode} (h : (s.txe && s.txie) = true)
    (hring : s.ringW .tx = s.ringR .tx ∨ (s.ringR .tx).toNat < s.launch.ntx)
    (hc : ∀ (t : State) (r : Slot) (v : Word), t.clockState = s.clockState → t.uartEn = s.uartEn → r.isUart = true →
      devWrite t r v = .error (.raise c)) : txRule s = .error (.raise c) := by
  by_cases hempty : s.ringW .tx = s.ringR .tx
  · rw [txRule_of_empty h hempty]
    exact hc _ _ _ rfl rfl rfl
  · rw [txRule_of_byte h hempty (hring.resolve_left hempty)]
    exact hc _ _ _ rfl rfl rfl

/-- A write to a peripheral slot raises TxWhileBusy only at UART_DATA with TXE = 0 (R167). -/
theorem devWrite_ne_txWhileBusy {r : Slot} {v : Word} (hr : r.isPeripheral = true)
    (hdata : r = .uartData → s.txe = true) : devWrite s r v ≠ .error (.raise .txWhileBusy) := by
  intro he
  obtain ⟨c, hc, hraise⟩ := devWrite_eq_error.mp he
  cases hraise
  rw [writeFault_of_peripheral hr] at hc
  split_ifs at hc with _ _ _ hbusy
  · cases hc
  · cases hc
  · cases hc
  · simp [hdata hbusy.1] at hbusy

/-- The transmit rule writes UART_DATA only with TXE = 1. -/
theorem txRule_ne_txWhileBusy (s : State) : txRule s ≠ .error (.raise .txWhileBusy) := by
  cases h : s.txe && s.txie with
  | false => rw [txRule_of_idle h]; nofun
  | true =>
    by_cases hempty : s.ringW .tx = s.ringR .tx
    · rw [txRule_of_empty h hempty]
      exact devWrite_ne_txWhileBusy rfl nofun
    by_cases hr : (s.ringR .tx).toNat < s.launch.ntx
    · have htxe : (s.release .tx).txe = true := (Bool.and_eq_true_iff.mp h).1
      rw [txRule_of_byte h hempty hr]
      exact devWrite_ne_txWhileBusy rfl fun _ => htxe
    · have hslot : readRingSlot s .tx (s.ringR .tx).toNat = .error .noSuchRingSlot := if_neg hr
      rw [txRule, if_pos h, if_pos hempty, getByte, hslot]
      nofun

theorem putByte_ne_raise {k : RingId} {b : Byte} (c : FaultCode) : putByte s k b ≠ .error (.raise c) := by
  unfold putByte writeRingSlot
  split_ifs <;> nofun

theorem map_eq_error {α β : Type} {x : Except Stop α} {f : α → β} {e : Stop} :
    x.map f = .error e ↔ x = .error e := by
  cases x <;> simp [Except.map]

/-- The receive rule writes no UART slot. -/
theorem rxRule_ne_txWhileBusy (s : State) : rxRule s ≠ .error (.raise .txWhileBusy) := by
  cases h : s.rxne && s.rxie with
  | false => rw [rxRule_of_idle h]; nofun
  | true =>
    cases huart : s.uartEn with
    | false => rw [rxRule_of_clock_off h huart]; nofun
    | true => rw [rxRule_of_byte h huart]; exact fun he => putByte_ne_raise _ (map_eq_error.mp he)

/-- Settles O37: what the rule writes passes its checks or fails one, and UART_DATA is written only with TXE = 1. -/
theorem transmitRuleSendsOrDisables : Obligations.TransmitRuleSendsOrDisables := by
  unfold Obligations.TransmitRuleSendsOrDisables
  refine fun s => ⟨txRule_of_idle, fun h hclock huart => ⟨fun hempty => ?_, fun hne hr => ?_⟩,
    fun h hring => ⟨fun hclock => ?_, fun hclock huart => ?_⟩, fun he => ?_⟩
  · have hbit : withBit (s.regValue .uartCtrl) 2 false = s.regValue .uartCtrl &&& ~~~4#32 := rfl
    have hres := and_reservedMask_of_sameFixed (s := s)
      (sameFixed_withBit (r := .uartCtrl) (i := 2) (s.regValue .uartCtrl) false (by omega) (by decide))
    rw [txRule_of_empty h hempty, devWrite_of_clocks rfl hclock (fun _ => huart) hres nofun, hbit]
    rfl
  · have htxe : (s.release .tx).txe = true := (Bool.and_eq_true_iff.mp h).1
    rw [txRule_of_byte h hne hr, devWrite_of_clocks (s := s.release .tx) rfl hclock (fun _ => huart)
      (wordClear_uartData _).1 fun _ => htxe, regWrite_uartData_byte]
    rfl
  · exact txRule_of_fault h hring fun t r v hct _ hr => devWrite_of_early (isPeripheral_of_isUart hr) (hct ▸ hclock)
  · exact txRule_of_fault h hring fun t r v hct hut hr => devWrite_of_clock_off hr (hct.trans hclock) (hut.trans huart)
  · obtain hrx | ⟨t, -, htx⟩ := bind_eq_error.mp he
    · exact rxRule_ne_txWhileBusy s hrx
    · exact txRule_ne_txWhileBusy t htx

/-! ### Delivery -/

theorem uartIrq_iff : s.uartIrq = true ↔ s.uartEn = true ∧ s.ue = true ∧
    ((s.rxne = true ∧ s.rxie = true) ∨ (s.txe = true ∧ s.txie = true)) := by
  simp [State.uartIrq, and_assoc]

theorem enabled_tick_iff (hrun : s.running = true) : enabled .tick s = true ↔ s.tickEn = true ∧ s.tickReload ≠ 0 := by
  simp [enabled, hrun, tickEnabled]

theorem enabled_irqe_iff (hrun : s.running = true) : enabled .irqe s = true ↔ s.imask = false ∧
    ((s.tickPend = true ∧ s.tickInt = true) ∨ (s.chen = true ∧ s.uartIrq = true)) := by
  simp [enabled, hrun, State.irqPending, State.tickIrq]

/-- Settles O51: the conditions of both moves, and the two branches of IRQE's step. -/
theorem tickAndInterruptDelivery : Obligations.TickAndInterruptDelivery := by
  unfold Obligations.TickAndInterruptDelivery
  intro s hp hf
  have hrun := running_iff.mpr ⟨hp, hf⟩
  refine ⟨enabled_tick_iff hrun, rfl, enabled_irqe_iff hrun, uartIrq_iff, fun hpend hint => ?_, fun hno => ?_⟩
  · have hirq : s.tickIrq = true := by rw [State.tickIrq, hpend, hint]; rfl
    rw [perform, irqeStep, if_pos hirq]
    rfl
  · have hirq : ¬ s.tickIrq = true := Bool.eq_false_iff.mp hno
    rw [perform, irqeStep, if_neg hirq, uartHandler]
    cases rxRule s <;> rfl

end Sys2Proof.Machine
end

section
/-! SUPPORT. The interrupt mask and tick counter commands (R290 to R292), and what a step of every move does to TICKS
(R293, R296). -/

namespace Sys2Proof.Machine

/-- Settles O54: the one micro-step of each command; TICK_COUNT reads as TICKS (R47). -/
theorem maskAndTickCommands : Obligations.MaskAndTickCommands := by
  unfold Obligations.MaskAndTickCommands
  intro s hms
  refine ⟨?_, ?_, ?_⟩
  · simp only [exec, execIrqoff, hms]
  · simp only [exec, execIrqon, hms]
  · simp only [exec, execRdtick, hms, State.regValue_tickCount]

/-! ### TICKS -/

/-- The move `m` leaves TICKS, counts once as a tick handler run, or clears TICKS as a wake from standby. -/
def TicksStep (m : Move) (s t : State) : Prop :=
  t.tickCount = s.tickCount ∨
    (m = .irqe ∧ s.tickIrq = true ∧ s.imask = false ∧ t.tickCount = s.tickCount + 1) ∨
    (m = .wake ∧ s.pstate = .standby ∧ t.tickCount = 0)

variable {s t : State}

theorem SequencerStep.tickCount (h : SequencerStep s t) : t.tickCount = s.tickCount := by
  cases h with
  | goto q => rfl
  | write r v q => exact s.regWrite_tickCount r v
  | sleep p _ => rfl

theorem urxStep_tickCount (s : State) : (urxStep s).tickCount = s.tickCount := by
  obtain ⟨-, h⟩ | ⟨b, rest, stat, byte, -, h⟩ := urxStep_cases s <;> rw [h]

/-- IRQE has a step only unmasked (R305). -/
theorem imask_of_enabled_irqe (hen : enabled .irqe s = true) : s.imask = false := by
  obtain ⟨-, hpending⟩ := Bool.and_eq_true_iff.mp hen
  simpa using (Bool.and_eq_true_iff.mp hpending).1

/-- An IRQE step with tickIrq runs the tick handler; the UART handler leaves TICKS (R296, R307). -/
theorem gives_irqeStep_ticks (hen : enabled .irqe s = true) : Gives (irqeStep s) (TicksStep .irqe s) := by
  unfold irqeStep
  split
  · next hirq => exact gives_ok (.inr (.inl ⟨rfl, hirq, imask_of_enabled_irqe hen, rfl⟩))
  · exact (gives_uartHandler s).mono fun t h => .inl h.frame.tickCount

/-- A wake from stop leaves TICKS; a wake from standby is the reset (R205, R206). -/
theorem wakeStep_ticks (s : State) : TicksStep .wake s (wakeStep s) := by
  unfold wakeStep
  split
  · exact .inl rfl
  · obtain ⟨cr, cfgr, h⟩ := wakeFromStop_eq s
    exact .inl (by rw [h])
  · next hp => exact .inr (.inr ⟨rfl, hp, rfl⟩)

theorem perform_ticks {m : Move} (hen : enabled m s = true) : Leads (perform m s) (TicksStep m s) := by
  have hraise : ∀ c, TicksStep m s (s.raise c) := fun _ => .inl rfl
  cases m with
  | host =>
    exact leads_hostStep hraise (fun _ _ _ _ h => .inl (h.stored (q := .tickCount) rfl)) fun _ =>
      gives_issue (fun _ => .inl rfl) fun _ _ _ _ _ => .inl rfl
  | cseq => exact leads_commit hraise ((gives_cseqStep s).mono fun _ h => .inl h.tickCount)
  | irqe => exact leads_commit hraise (gives_irqeStep_ticks hen)
  | urx => exact leads_next (.inl (urxStep_tickCount s))
  | wake => exact leads_next (wakeStep_ticks s)
  | portCmd c => exact leads_commit hraise (gives_cmdWrite fun _ _ _ => .inl rfl)
  | osc | pll | clksw | tick | utx | portArg _ => exact leads_next (.inl rfl)

/-- Settles O53: what the taken move does to TICKS, with taking it and the frequency checks leaving TICKS. -/
theorem ticksCountHandlerRuns : Obligations.TicksCountHandlerRuns := by
  unfold Obligations.TicksCountHandlerRuns
  intro s t h
  obtain ⟨-, h⟩ := step_eq_next.mp h
  obtain ⟨-, rfl⟩ | ⟨hen, u, hu, rfl⟩ := moveStep_eq_next.mp h
  · exact .inl s.takeMove_tickCount
  · simpa [TicksStep, State.tickIrq, State.tickInt] using perform_ticks hen u hu

end Sys2Proof.Machine
end

section
/-! SUPPORT. Faults (R311, R313): raising records the first one, a block with one recorded is halted, and the step of
every move records a fault alone or none. -/

namespace Sys2Proof.Machine

variable {s t : State} {c d : FaultCode}

/-! ### Raising (R313) -/

theorem raise_of_fault_none (h : s.fault = none) (c : FaultCode) : s.raise c = { s with fault := some c } := by
  simp [State.raise, h]

/-- The record keeps the first fault. -/
theorem raise_of_fault (h : s.fault = some d) (c : FaultCode) : s.raise c = s := by
  have hrecord : (s.raise c).fault = s.fault := by simp [State.raise, h]
  calc s.raise c = { s with fault := (s.raise c).fault } := rfl
    _ = s := by rw [hrecord]

theorem fcode_of_fault (h : s.fault = some c) : s.fcode = c.number := by
  simp [State.fcode, h]

theorem enabled_of_fault (h : s.fault = some d) (m : Move) : enabled m s = false :=
  Bool.eq_false_iff.mpr fun hen => by simp [enabled_fault hen] at h

theorem finalState_of_fault (h : s.fault = some d) : finalState s = false := by
  simp [finalState, h]

/-- Settles O7: STATUS shows the record, and every agent and WAKE asks for a state without one. -/
theorem faultHaltsTheBlock : Obligations.FaultHaltsTheBlock := by
  unfold Obligations.FaultHaltsTheBlock
  refine fun s c d => ⟨fun h => ?_, fun h =>
    ⟨raise_of_fault h c, step_of_fault h, finalState_of_fault h, enabled_of_fault h⟩⟩
  have hfault := s.raise_fault_of_none c h
  obtain ⟨-, hflag, hcode, -, -⟩ := statusWord_fields (s.raise c)
  exact ⟨raise_of_fault_none h c, by rw [hflag, hfault]; rfl, by rw [hcode, fcode_of_fault hfault]⟩

/-! ### What a step records (R311) -/

/-- The step from `s` to `t` leaves the fault record empty, or records a fault and changes nothing else. -/
def FaultsAlone (s t : State) : Prop := t.fault = none ∨ ∃ c, t = s.raise c

theorem faultsAlone_raise (s : State) (c : FaultCode) : FaultsAlone s (s.raise c) := .inr ⟨c, rfl⟩

/-- No end of a micro-step records a fault. -/
theorem MicroStepEnd.fault {i : Instr} (h : MicroStepEnd i s t) : t.fault = s.fault := by
  cases h <;> rfl

theorem HostStep.faultsAlone {i : Instr} (h : HostStep i s t) (hs : s.fault = none) : FaultsAlone s t := by
  cases h with
  | raise c => exact faultsAlone_raise s c
  | run access finish => exact .inl (finish.fault.trans (access.frame.fault.trans hs))

theorem SequencerStep.fault (h : SequencerStep s t) : t.fault = s.fault := by
  cases h with
  | goto q => rfl
  | write r v q => exact s.regWrite_fault r v
  | sleep p _ => rfl

theorem urxStep_fault (s : State) : (urxStep s).fault = s.fault := by
  obtain ⟨-, h⟩ | ⟨b, rest, stat, byte, -, h⟩ := urxStep_cases s <;> rw [h]

/-- A wake from stop leaves the record, and a wake from standby empties it (R205, R206, R340). -/
theorem wakeStep_fault (hs : s.fault = none) : (wakeStep s).fault = none := by
  unfold wakeStep
  cases s.pstate with
  | run => exact hs
  | stop =>
    obtain ⟨cr, cfgr, h⟩ := wakeFromStop_eq s
    exact (congrArg State.fault h).trans hs
  | standby => rfl

/-- Only a committed access raises a fault, and then it gives no state of its own. -/
theorem perform_faultsAlone (hs : s.fault = none) (m : Move) : Leads (perform m s) (FaultsAlone s) := by
  have hraise := faultsAlone_raise s
  cases m with
  | host =>
    exact leads_hostStep hraise (fun _ _ _ _ h => h.faultsAlone hs) fun _ =>
      gives_issue (fun _ => .inl hs) fun _ _ _ _ _ => .inl hs
  | cseq => exact leads_commit hraise ((gives_cseqStep s).mono fun _ h => .inl (h.fault.trans hs))
  | irqe =>
    refine leads_commit hraise ((gives_irqeStep s).mono ?_)
    rintro t (rfl | h)
    · exact .inl hs
    · exact .inl (h.frame.fault.trans hs)
  | urx => exact leads_next (.inl ((urxStep_fault s).trans hs))
  | wake => exact leads_next (.inl (wakeStep_fault hs))
  | portCmd c => exact leads_commit hraise (gives_cmdWrite fun _ _ _ => .inl hs)
  | osc | pll | clksw | tick | utx | portArg _ => exact leads_next (.inl hs)

/-- Settles O8: the step records a fault alone or none. -/
theorem accessFaultsChangeNothingElse : Obligations.AccessFaultsChangeNothingElse := by
  unfold Obligations.AccessFaultsChangeNothingElse
  intro m s t c hs h hc
  obtain hnone | ⟨d, rfl⟩ := perform_faultsAlone hs m t h
  · simp [hnone] at hc
  · obtain rfl : d = c := Option.some.inj ((s.raise_fault_of_none d hs).symm.trans hc)
    exact raise_of_fault_none hs d

end Sys2Proof.Machine
end

section
/-! SUPPORT. The bus and flash limits (R55, R312): what the checks after a step do, and that a step leaves the limits
holding or records one of their two faults. -/

namespace Sys2Proof.Machine

variable {s t : State}

/-! ### The limits -/

theorem overclocked_iff : s.overclocked = true ↔ s.launch.variant.ahbMaxHz < s.hclk ∨
    s.launch.variant.apb1MaxHz < s.pclk1 ∨ s.launch.variant.apb2MaxHz < s.pclk2 := by
  simp [State.overclocked, or_assoc]

theorem flashTooSlow_iff : s.flashTooSlow = true ↔ s.launch.variant.flashMax s.latency < s.sysclk := by
  simp [State.flashTooSlow]

theorem frequenciesOk_iff : frequenciesOk s = true ↔ s.overclocked = false ∧ s.flashTooSlow = false := by
  simp [frequenciesOk]

/-- A fault recorded changes no frequency. -/
theorem frequenciesOk_raise (s : State) (c : FaultCode) : frequenciesOk (s.raise c) = frequenciesOk s := rfl

theorem frequenciesOk_takeMove (s : State) : frequenciesOk s.takeMove = frequenciesOk s := by
  unfold State.takeMove
  split <;> rfl

/-! ### The checks -/

/-- The limits hold, or one of their two faults is recorded. -/
def LimitsChecked (s : State) : Prop :=
  frequenciesOk s = true ∨ s.fault = some .busOverclock ∨ s.fault = some .flashWaitStates

theorem checkFrequencies_of_fault (h : s.fault ≠ none) : s.checkFrequencies = s := by
  obtain ⟨c, hc⟩ := Option.ne_none_iff_exists'.mp h
  simp [State.checkFrequencies, hc]

theorem checkFrequencies_of_fault_none (h : s.fault = none) : s.checkFrequencies =
    if s.overclocked then s.raise .busOverclock
    else if s.flashTooSlow then s.raise .flashWaitStates
    else s := by
  simp [State.checkFrequencies, h]

/-- The checks find every state without a fault; one with a fault they leave. -/
theorem limitsChecked_checkFrequencies (h : s.fault ≠ none → frequenciesOk s = true) :
    LimitsChecked s.checkFrequencies := by
  by_cases hs : s.fault = none
  · rw [checkFrequencies_of_fault_none hs]
    split
    · exact .inr (.inl (s.raise_fault_of_none _ hs))
    · next hbus =>
      split
      · exact .inr (.inr (s.raise_fault_of_none _ hs))
      · next hflash => exact .inl (frequenciesOk_iff.mpr ⟨by simpa using hbus, by simpa using hflash⟩)
  · rw [checkFrequencies_of_fault hs]
    exact .inl (h hs)

/-- An access that raised a fault left the limits holding (R311), and any other step is checked. -/
theorem step_limitsChecked (hs : frequenciesOk s = true) (h : step s = .next t) : LimitsChecked t := by
  obtain ⟨hf, h⟩ := step_eq_next.mp h
  have htake : frequenciesOk s.takeMove = true := (frequenciesOk_takeMove s).trans hs
  obtain ⟨-, rfl⟩ | ⟨-, u, hu, rfl⟩ := moveStep_eq_next.mp h
  · exact .inl htake
  · refine limitsChecked_checkFrequencies fun hfault => ?_
    obtain hnone | ⟨c, rfl⟩ := perform_faultsAlone (s.takeMove_fault.trans hf) _ u hu
    · exact absurd hnone hfault
    · exact (frequenciesOk_raise _ c).trans htake

/-- Settles O55: the limits hold or one of their faults is recorded, so without a fault they hold. -/
theorem frequencyLimitsHold : Obligations.FrequencyLimitsHold := by
  unfold Obligations.FrequencyLimitsHold
  refine ⟨fun s t hs h => ?_, fun u => ⟨fun hf => ?_, fun hf => congrArg _ (checkFrequencies_of_fault hf)⟩⟩
  · have ht := step_limitsChecked hs h
    exact ⟨fun hf => ht.resolve_right (by simp [hf]), fun hno => ht.resolve_left (by simp [hno])⟩
  · simp only [checked, checkFrequencies_of_fault_none hf, overclocked_iff, flashTooSlow_iff]

end Sys2Proof.Machine
end

section
/-! SUPPORT. What a handler run leaves HOST (R231, R276, R296, R306): the registers and HOST's ring indices by IRQE's
rights, and ring RAM by the bytes that each rule of the handler stores. -/

namespace Sys2Proof.Machine

variable {s t : State}

/-! ### Registers and HOST's indices -/

/-- A handler run leaves the words of the slots that IRQE does not write, UART_STAT aside (R36). -/
theorem HandlerRun.stored {q : Slot} (h : HandlerRun s t) (hq : ¬ handlerRights.write q) (hstat : q ≠ .uartStat) :
    t.stored q = s.stored q := by
  induction h with
  | refl => rfl
  | tail _ access ih => exact (access.stored hq hstat).trans ih

/-- W_TX and R_RX are HOST's (R231). -/
theorem HandlerRun.hostIndices (h : HandlerRun s t) (hl : s.launch.wellFormed = true) :
    t.ringW .tx = s.ringW .tx ∧ t.ringR .rx = s.ringR .rx := by
  induction h with
  | refl => exact ⟨rfl, rfl⟩
  | @tail u v hrun access ih =>
    have hlu : u.launch.wellFormed = true := by rwa [(HandlerRun.frame hrun).launch]
    exact ⟨(access.ringW (k := .tx) hlu nofun).trans ih.1, (access.ringR (k := .rx) hlu nofun).trans ih.2⟩

/-! ### The bytes each rule stores -/

/-- From `s` to `t` no byte of ring RAM changes but those of the ranges, each a first address and a length. -/
def StoresIn (ranges : List (Nat × Nat)) (s t : State) : Prop :=
  ∀ a, (∀ p ∈ ranges, a < p.1 ∨ p.1 + p.2 ≤ a) → memGet t.mem a = memGet s.mem a

theorem storesIn_of_mem {ranges : List (Nat × Nat)} (h : t.mem = s.mem) : StoresIn ranges s t :=
  fun a _ => congrArg (memGet · a) h

theorem StoresIn.trans {u : State} {l l' : List (Nat × Nat)} (h : StoresIn l s t) (h' : StoresIn l' t u) :
    StoresIn (l ++ l') s u := fun a ha =>
  (h' a fun p hp => ha p (List.mem_append_right l hp)).trans (h a fun p hp => ha p (List.mem_append_left l' hp))

/-- The bytes that a put into ring `k` stores (R233). -/
def putStoredBytes (k : RingId) (s : State) : List (Nat × Nat) :=
  if ringFull s.launch k (s.ringW k) (s.ringR k) then []
  else [(ringSlotAddr s.launch k (s.ringW k).toNat, 1), (ringBase s.launch k, 4)]

/-- The receive rule's part of handlerStoredBytes (R277). -/
def rxStoredBytes (s : State) : List (Nat × Nat) := if s.rxne && s.rxie then putStoredBytes .rx s else []

/-- The transmit rule's part of handlerStoredBytes (R278). -/
def txStoredBytes (s : State) : List (Nat × Nat) :=
  if s.txe && s.txie && decide (s.ringW .tx ≠ s.ringR .tx) then [(ringBase s.launch .tx + 4, 4)] else []

theorem handlerStoredBytes_eq (s : State) :
    handlerStoredBytes s = if s.tickIrq then [] else rxStoredBytes s ++ txStoredBytes s := by
  unfold handlerStoredBytes rxStoredBytes putStoredBytes txStoredBytes
  cases s.rxne && s.rxie <;> cases ringFull s.launch .rx (s.ringW .rx) (s.ringR .rx) <;> rfl

/-- A put changes ring RAM alone. -/
theorem putByte_eq_ok_mem {k : RingId} {b : Byte} (h : putByte s k b = .ok t) : ∃ m, t = { s with mem := m } := by
  have hput : Gives (putByte s k b) fun u => ∃ m, u = { s with mem := m } := by
    unfold putByte
    exact .ite (gives_ok ⟨s.mem, rfl⟩) (gives_map (gives_writeRingSlot fun _ => ⟨_, rfl⟩))
  exact hput t h

theorem gives_putByte_storesIn (k : RingId) (b : Byte) : Gives (putByte s k b) (StoresIn (putStoredBytes k s) s) := by
  unfold putByte putStoredBytes
  split
  · exact gives_ok (storesIn_of_mem rfl)
  · refine gives_map (gives_writeRingSlot fun _ a ha => ?_)
    have hslot := ha _ List.mem_cons_self
    have hindex := ha _ (List.mem_cons_of_mem _ List.mem_cons_self)
    exact (memGet_memWrite4_outside hindex _ _).trans (memGet_memSet_ne (by omega) _ _)

/-- A receive rule that gives a state was idle, or put RXDATA and cleared RXNE and ORE (R50, R277). -/
theorem rxRule_cases (h : rxRule s = .ok t) : (s.rxne && s.rxie) = false ∧ t = s ∨
    (s.rxne && s.rxie) = true ∧ ∃ u, putByte s .rx s.rxData = .ok u ∧
      t = { u with uartStat := s.uartStat &&& ~~~5#32 } := by
  cases hirq : s.rxne && s.rxie with
  | false =>
    rw [rxRule_of_idle hirq] at h
    exact .inl ⟨rfl, (Except.ok.inj h).symm⟩
  | true =>
    cases huart : s.uartEn with
    | false => rw [rxRule_of_clock_off hirq huart] at h; cases h
    | true =>
      rw [rxRule_of_byte hirq huart] at h
      obtain ⟨u, hu, rfl⟩ := map_eq_ok.mp h
      exact .inr ⟨rfl, u, hu, rfl⟩

theorem rxRule_storesIn (h : rxRule s = .ok t) : StoresIn (rxStoredBytes s) s t := by
  unfold rxStoredBytes
  obtain ⟨-, rfl⟩ | ⟨hirq, u, hu, rfl⟩ := rxRule_cases h
  · exact storesIn_of_mem rfl
  · rw [if_pos hirq]
    exact gives_putByte_storesIn .rx s.rxData u hu

/-- The receive rule leaves TXE and TXIE. -/
theorem rxRule_transmitFlags (h : rxRule s = .ok t) : t.txe = s.txe ∧ t.txie = s.txie := by
  obtain ⟨-, rfl⟩ | ⟨-, u, hu, rfl⟩ := rxRule_cases h
  · exact ⟨rfl, rfl⟩
  · obtain ⟨m, rfl⟩ := putByte_eq_ok_mem hu
    have hbit : (~~~5#32).getLsbD 1 = true := by decide
    exact ⟨by simp only [State.txe, BitVec.getLsbD_and, hbit, Bool.and_true], rfl⟩

/-- The transmit rule finds what it would find without the receive rule before it (R276). -/
theorem txStoredBytes_rxRule (hl : s.launch.wellFormed = true) (h : rxRule s = .ok t) :
    txStoredBytes t = txStoredBytes s := by
  have hrun : HandlerRun s t := gives_rxRule t h
  obtain ⟨htxe, htxie⟩ := rxRule_transmitFlags h
  simp only [txStoredBytes, htxe, htxie, hrun.frame.launch, (hrun.hostIndices hl).1, rxRule_ringR_tx hl h]

/-- The transmit rule stores R_TX, when it takes a byte. -/
theorem gives_txRule_storesIn (s : State) : Gives (txRule s) (StoresIn (txStoredBytes s) s) := by
  unfold txRule txStoredBytes getByte
  split
  · next hirq =>
    split
    · next hne =>
      rw [if_pos (by simp [hirq, hne])]
      refine gives_bind (gives_map fun b _ => gives_devWrite fun a ha => ?_)
      rw [State.regWrite_mem]
      exact memGet_memWrite4_outside (ha _ List.mem_cons_self) _ _
    · exact gives_devWrite (storesIn_of_mem (s.regWrite_mem _ _))
  · exact gives_ok (storesIn_of_mem rfl)

/-- One IRQE step stores where handlerStoredBytes says. -/
theorem gives_irqeStep_storesIn (hl : s.launch.wellFormed = true) :
    Gives (irqeStep s) (StoresIn (handlerStoredBytes s) s) := by
  rw [handlerStoredBytes_eq]
  unfold irqeStep uartHandler
  split
  · exact gives_ok (storesIn_of_mem rfl)
  · refine gives_bind fun u hu => (gives_txRule_storesIn u).mono fun t ht => ?_
    rw [← txStoredBytes_rxRule hl hu]
    exact (rxRule_storesIn hu).trans ht

/-! ### The statement -/

/-- What an IRQE step leaves of HOST's command, the ports, the mask, the registers and the power state. -/
structure HandlerFrame (s t : State) : Prop where
  launch : t.launch = s.launch
  arg : t.arg = s.arg
  res : t.res = s.res
  busy : t.busy = s.busy
  seqState : t.seqState = s.seqState
  pstate : t.pstate = s.pstate
  hpc : t.hpc = s.hpc
  current : t.current = s.current
  rxData : t.rxData = s.rxData
  chen : t.chen = s.chen
  imask : t.imask = s.imask
  lineIn : t.lineIn = s.lineIn
  lineOut : t.lineOut = s.lineOut
  stored : ∀ q, q ≠ .uartStat → q ≠ .uartData → q ≠ .uartCtrl → q ≠ .tickCount → t.stored q = s.stored q

theorem handlerFrame_raise (s : State) (c : FaultCode) : HandlerFrame s (s.raise c) := by
  constructor <;> intros <;> rfl

/-- The tick handler changes TICKS and TICKPEND alone (R296). -/
theorem handlerFrame_tickHandler (s : State) : HandlerFrame s (tickHandler s) := by
  constructor
  case stored =>
    intro q _ _ _ hcount
    cases q
    case tickCount => exact absurd rfl hcount
    all_goals rfl
  all_goals rfl

theorem HandlerRun.handlerFrame (h : HandlerRun s t) : HandlerFrame s t := by
  obtain ⟨hlaunch, harg, hres, hbusy, -, hseq, hpower, hpc, hcur, -, -, hrx, hchen, hmask, hin, hout⟩ := h.frame
  exact ⟨hlaunch, harg, hres, hbusy, hseq, hpower, hpc, hcur, hrx, hchen, hmask, hin, hout,
    fun q hstat hdata hctrl _ => h.stored (not_or.mpr ⟨hdata, hctrl⟩) hstat⟩

theorem perform_irqe_frame (s : State) : Leads (perform .irqe s) (HandlerFrame s) := by
  refine leads_commit (handlerFrame_raise s) ((gives_irqeStep s).mono ?_)
  rintro t (rfl | h)
  · exact handlerFrame_tickHandler s
  · exact h.handlerFrame

theorem perform_irqe_hostIndices (hl : s.launch.wellFormed = true) :
    Leads (perform .irqe s) fun t => t.ringW .tx = s.ringW .tx ∧ t.ringR .rx = s.ringR .rx := by
  refine leads_commit (fun _ => ⟨rfl, rfl⟩) ((gives_irqeStep s).mono ?_)
  rintro t (rfl | h)
  · exact ⟨rfl, rfl⟩
  · exact h.hostIndices hl

/-- Settles O52: the frame of a handler run, and of ring RAM the bytes its rules store. -/
theorem handlersLeaveHostAlone : Obligations.HandlersLeaveHostAlone := by
  unfold Obligations.HandlersLeaveHostAlone
  intro s t h
  obtain ⟨hlaunch, harg, hres, hbusy, hseq, hpower, hpc, hcur, hrx, hchen, hmask, hin, hout, hstored⟩ :=
    perform_irqe_frame s t h
  have hslot : ∀ q : Slot, q ≠ .uartStat ∧ q ≠ .uartData ∧ q ≠ .uartCtrl ∧ q ≠ .tickCount →
      t.stored q = s.stored q := fun q ⟨hstat, hdata, hctrl, hcount⟩ => hstored q hstat hdata hctrl hcount
  refine ⟨hcur, hbusy, harg, hres, hpc, hseq, hpower, hmask, hchen, hslot .scratch (by decide),
    hslot .clkCr (by decide), hslot .clkCfgr (by decide), hslot .clkPllcfg (by decide), hslot .flashAcr (by decide),
    hslot .penr (by decide), hslot .tickCtrl (by decide), hslot .tickReload (by decide), hin, hout,
    hslot .pwrCr (by decide), hslot .scr (by decide), hslot .uartBaud (by decide), hrx, hlaunch, fun hr => ?_⟩
  have hl := (ringsInRange_iff.mp hr).1
  exact ⟨leads_commit (fun _ => storesIn_of_mem rfl) (gives_irqeStep_storesIn hl) t h,
    perform_irqe_hostIndices hl t h⟩

end Sys2Proof.Machine
end

section
/-! SUPPORT. The state after a reset (spec/70_reset_and_hazards.md R340), for every launch and every draw: what its
registers read, its clock, and that the invariants of every step hold there. -/

namespace Sys2Proof.Machine

/-! ### Register reads and limits of any state -/

/-- A word that sets no reserved bit and has the hardwired bits reads as it is stored (R35, R39). -/
theorem regValue_of_wordClear {s : State} {r : Slot} (h : WordClear r (s.stored r)) : s.regValue r = s.stored r := by
  obtain ⟨hres, hwired⟩ := h
  apply BitVec.eq_of_getLsbD_eq
  intro j hj
  have hbit : ((s.stored r).getLsbD j && !(r.rwMask.getLsbD j || r.roMask.getLsbD j)) = false := by
    simpa [Slot.reservedMask, hj] using congrArg (·.getLsbD j) hres
  have hwiredBit : ((s.stored r).getLsbD j && r.hardwired.getLsbD j) = r.hardwired.getLsbD j := by
    simpa using congrArg (·.getLsbD j) hwired
  rw [getLsbD_regValue]
  cases hw : (s.stored r).getLsbD j with
  | false => simpa [hw] using hwiredBit.symm
  | true =>
    rw [hw, Bool.true_and, Bool.not_eq_false'] at hbit
    rw [hbit, Bool.and_true, Bool.true_or]

/-- A state without a fault that the checks leave is within the limits (R312). -/
theorem frequenciesOk_of_checkFrequencies_eq {s : State} (hf : s.fault = none) (h : s.checkFrequencies = s) :
    frequenciesOk s = true := by
  have hchecked : LimitsChecked s.checkFrequencies := limitsChecked_checkFrequencies fun hne => absurd hf hne
  rw [h] at hchecked
  exact hchecked.resolve_right (by simp [hf])

section

variable {l : Launch} {d : Draws} {i o : List Byte} {ms : List Move} {n : Nat}

/-! ### Registers and rings -/

/-- No reset value and no draw sets a reserved bit, and IRCON and IRCRDY are 1 (R35, R39). -/
theorem wordClear_afterReset (r : Slot) : WordClear r ((State.afterReset l d i o ms n).stored r) := by
  cases r
  case scratch => exact ⟨BitVec.and_zero, BitVec.and_zero⟩
  case uartData => exact wordClear_uartData d.rxData
  all_goals
    simp only [WordClear, State.stored, State.afterReset]
    decide

theorem regValue_afterReset (r : Slot) :
    (State.afterReset l d i o ms n).regValue r = (State.afterReset l d i o ms n).stored r :=
  regValue_of_wordClear (wordClear_afterReset r)

/-- Both indices of both rings read 0 (R62). -/
theorem ringIndices_afterReset (k : RingId) :
    (State.afterReset l d i o ms n).ringW k = 0 ∧ (State.afterReset l d i o ms n).ringR k = 0 :=
  ⟨memRead4_nil _, memRead4_nil _⟩

/-! ### The clock -/

theorem sws_afterReset : (State.afterReset l d i o ms n).sws = 0 :=
  (by decide : fieldOf (0 : Word) 2 2 = 0)

theorem prescaler_afterReset : (State.afterReset l d i o ms n).prescaler = Prescaler.one :=
  (by decide :
    Prescaler.mk (fieldOf (0 : Word) 4 4) (fieldOf (0 : Word) 8 3) (fieldOf (0 : Word) 11 3) = Prescaler.one)

theorem latency_afterReset : (State.afterReset l d i o ms n).latency = 0 :=
  (by decide : fieldOf (0 : Word) 0 4 = 0)

theorem pllOn_afterReset : (State.afterReset l d i o ms n).pllOn = false :=
  (by decide : (3 : Word).getLsbD 16 = false)

theorem xoscOn_afterReset : (State.afterReset l d i o ms n).xoscOn = false :=
  (by decide : (3 : Word).getLsbD 8 = false)

theorem clockState_afterReset : (State.afterReset l d i o ms n).clockState = .reset := by
  simp [State.clockState, sws_afterReset, pllOn_afterReset, xoscOn_afterReset]

theorem sysclk_afterReset : (State.afterReset l d i o ms n).sysclk = l.variant.fIrc := by
  rw [State.sysclk, sws_afterReset]
  rfl

theorem hclk_afterReset : (State.afterReset l d i o ms n).hclk = l.variant.fIrc := by
  rw [State.hclk, sysclk_afterReset, prescaler_afterReset]
  exact Nat.div_one _

theorem pclk1_afterReset : (State.afterReset l d i o ms n).pclk1 = l.variant.fIrc := by
  rw [State.pclk1, hclk_afterReset, prescaler_afterReset]
  exact Nat.div_one _

theorem pclk2_afterReset : (State.afterReset l d i o ms n).pclk2 = l.variant.fIrc := by
  rw [State.pclk2, hclk_afterReset, prescaler_afterReset]
  exact Nat.div_one _

/-! ### The invariants -/

theorem ringsSound_afterReset (hl : l.wellFormed = true) : RingsSound (State.afterReset l d i o ms n) := by
  have hzero : ∀ k, (0 : Word).toNat < ringCap l k := fun _ => isIndex_zero.lt hl
  refine ⟨rfl, hl, fun k => ?_, fun k => ?_⟩
  · rw [(ringIndices_afterReset k).1]
    exact hzero k
  · rw [(ringIndices_afterReset k).2]
    exact hzero k

theorem clockCodesLegal_afterReset : clockCodesLegal (State.afterReset l d i o ms n) = true :=
  clockCodesLegal_iff.mpr
    (by decide : Slot.reservedCode .clkCfgr (0 : Word) = false ∧ fieldOf (0 : Word) 2 2 ≠ 3)

/-- No command, CSEQ idle, the block in RUN (R56, R65, R67). -/
theorem controlValid_afterReset : ControlValid (State.afterReset l d i o ms n) :=
  .of_idle ((commandValid_of_idle rfl).mpr rfl) rfl rfl

/-- A variant within its limits on the internal oscillator passes the checks at reset (R9, R312). -/
theorem checkFrequencies_afterReset (hv : VariantSound l.variant) :
    (State.afterReset l d i o ms n).checkFrequencies = State.afterReset l d i o ms n := by
  have hflash := hv.flash
  simp only [Variant.flashOk, Bool.and_eq_true, decide_eq_true_eq] at hflash
  obtain ⟨⟨hirc, -⟩, -⟩ := hflash
  refine checkFrequencies_of_limits rfl sysclk_afterReset ?_ ?_
  · rw [prescaler_afterReset]
    exact hv.irc_one
  · rwa [latency_afterReset]

theorem frequenciesOk_afterReset (hv : VariantSound l.variant) :
    frequenciesOk (State.afterReset l d i o ms n) = true :=
  frequenciesOk_of_checkFrequencies_eq rfl (checkFrequencies_afterReset hv)

theorem driverExcluded_afterReset : driverExcluded (State.afterReset l d i o ms n) = true :=
  driverExcluded_iff.mpr nofun

theorem enableFollowsQueue_afterReset : enableFollowsQueue (State.afterReset l d i o ms n) = true :=
  enableFollowsQueue_iff.mpr nofun

theorem chinitEmptiesTx_afterReset : chinitEmptiesTx (State.afterReset l d i o ms n) = true :=
  chinitEmptiesTx_iff.mpr fun _ => nofun

theorem snapshotsSound_afterReset : snapshotsSound (State.afterReset l d i o ms n) = true :=
  snapshotsSound_iff.mpr nofun

/-- The PLL is off and CSEQ idle, so no configuration is due (R185). -/
theorem pllConfigHeld_afterReset : pllConfigHeld (State.afterReset l d i o ms n) = true := by
  refine pllConfigHeld_iff.mpr ?_
  rintro (hon | hseq)
  · simp [pllOn_afterReset] at hon
  · nomatch hseq

theorem reservedBitsClear_afterReset : reservedBitsClear (State.afterReset l d i o ms n) = true :=
  reservedBitsClear_iff.mpr wordClear_afterReset

end

/-! ### The statements -/

/-- Settles O9: registers read as stored, empty ring RAM reads 0, and the clock runs on the internal oscillator. -/
theorem resetGivesTheTableValues : Obligations.ResetGivesTheTableValues := by
  unfold Obligations.ResetGivesTheTableValues
  intro l d i o ms n
  have hreg := @regValue_afterReset l d i o ms n
  exact ⟨rfl, rfl, rfl, rfl, hreg .flashAcr, hreg .clkCr, hreg .clkPllcfg, hreg .clkCfgr, hreg .penr, hreg .pwrCr,
    hreg .scr, hreg .tickCtrl, hreg .tickReload, hreg .tickCount, rfl, hreg .uartStat, hreg .uartCtrl, hreg .uartBaud,
    ringIndices_afterReset, rfl, rfl, rfl, rfl, rfl, hreg .scratch, rfl, rfl, clockState_afterReset,
    sysclk_afterReset, hclk_afterReset, pclk1_afterReset, pclk2_afterReset⟩

/-- Settles O10: each invariant holds after a reset under any well-formed launch, and `Launch.ex` is one. -/
theorem invariantsHoldAtReset : Obligations.InvariantsHoldAtReset := by
  unfold Obligations.InvariantsHoldAtReset
  have hl : Launch.ex.wellFormed = true := by decide
  have hv : VariantSound Launch.ex.variant := .of_wellFormed (by decide)
  obtain ⟨hmem, hrings⟩ := ringsSound_iff.mp (ringsSound_afterReset hl : RingsSound State.reset)
  obtain ⟨hcommand, hsequencer⟩ := controlValid_iff.mp (controlValid_afterReset : ControlValid State.reset)
  exact ⟨(checkFrequencies_afterReset hv).symm, hmem, hrings, clockCodesLegal_afterReset, hcommand, hsequencer,
    frequenciesOk_afterReset hv, driverExcluded_afterReset, enableFollowsQueue_afterReset, chinitEmptiesTx_afterReset,
    reservedBitsClear_afterReset, pllConfigHeld_afterReset, snapshotsSound_afterReset⟩

end Sys2Proof.Machine
end
